-- ==== Sys2Proof/Word.lean ====
section
/-! DEFINITION. The word types of the engine: the 32-bit bus word, the byte of a host buffer, the
vector, and the point. -/

namespace Sys2Proof

/-- A 32-bit word: every host access and every command (00_scope.md R10, 30_encoding.md R80). -/
abbrev Word := BitVec 32

/-- A byte of a host buffer (20_memory.md R67). -/
abbrev Byte := BitVec 8

/-- A vector (00_scope.md R21): bit `i` is the coefficient of `t^i`. It is held in 576 bits, the CAP of
the largest build; a build with a smaller CAP keeps every bit at CAP and above 0 (log 2). -/
abbrev Vec := BitVec 576

/-- `ZERO`: the all-zero vector (00_scope.md R22). -/
abbrev Vec.ZERO : Vec := 0#576

/-- `ONE`: the vector with only bit 0 set (00_scope.md R22). -/
abbrev Vec.ONE : Vec := 1#576

/-- A point: a pair of vectors (43_point.md R132). -/
structure Point where
  x : Vec
  y : Vec
deriving DecidableEq, Repr

/-- O, the point at infinity, is the pair (ZERO, ZERO) (10_state.md R32, 43_point.md R132). -/
def Point.O : Point := ⟨Vec.ZERO, Vec.ZERO⟩

end Sys2Proof
end

