-- ==== Sys2Proof/Config.lean ====
section
/-! DEFINITION. The parameters of the engine (00_scope.md R10 to R20): what a build, a mode bit or the
host fixes. The numbers that belong to a curve stand in Machine/Curve.lean. ENGINE_BASE and
HOST_BYTE_ORDER are OPEN and are arguments of the functions that need them (logs 8 and 9). -/

namespace Sys2Proof

/-- CURVE, the build parameter: one of ten named curves (00_scope.md R2, R12). -/
inductive Curve where
  | k163 | b163 | k233 | b233 | k283 | b283 | k409 | b409 | k571 | b571
deriving DecidableEq, Repr

/-- The vector-valued curve parameters, in the order of the constant file (10_state.md R53). -/
inductive ConstName where
  | poly | b | gx | gy | order
deriving DecidableEq, Repr

/-- TimingPolicy (00_scope.md R17): selected by CTRL.UNIFORM, with no architectural effect. -/
inductive TimingPolicy where
  | fast | uniform
deriving DecidableEq, Repr

/-- HOST_BYTE_ORDER (00_scope.md R20): how the host serialises a word into a byte buffer. -/
inductive ByteOrder where
  | little | big
deriving DecidableEq, Repr

/-- W, the word width in bits (00_scope.md R10). -/
def Config.wordBits : Nat := 32

/-- BITVEC_MARGIN (00_scope.md R11). -/
def Config.bitvecMargin : Nat := 3

/-- NREGS, the number of vector registers (00_scope.md R16). -/
def Config.nregs : Nat := 16

/-- The build that `State.reset` and `decodeTableWord` stand for. DESIGN CHOICE (log 1): the spec leaves
CURVE to the build; K-163 is the curve of its test vectors. Every meaning reads the state's own `curve`,
so that a statement over all states covers the ten builds. -/
def Config.buildCurve : Curve := .k163

end Sys2Proof
end

