-- ==== Sys2Proof/Machine/Curve.lean ====
section
/-! DEFINITION. What a build fixes (00_scope.md R12 to R15, 10_state.md R51 to R54): the degree, the
capacity, the coefficients and the constant file of each of the ten curves. None of it is state: no
command and no host access can change it (R51). -/

namespace Sys2Proof

/-- m, the curve degree (00_scope.md R12, R13). -/
def Curve.m : Curve → Nat
  | .k163 => 163
  | .b163 => 163
  | .k233 => 233
  | .b233 => 233
  | .k283 => 283
  | .b283 => 283
  | .k409 => 409
  | .b409 => 409
  | .k571 => 571
  | .b571 => 571

/-- NWORDS = ceil((m + 3) / 32) (00_scope.md R14). -/
def Curve.nwords (c : Curve) : Nat :=
  (c.m + Config.bitvecMargin + (Config.wordBits - 1)) / Config.wordBits

/-- CAP = 32 * NWORDS, the number of bits of a vector register (00_scope.md R14). -/
def Curve.cap (c : Curve) : Nat := Config.wordBits * c.nwords

/-- KEYBYTES = 4 * NWORDS, the bytes of one coordinate, scalar or signature component (00_scope.md R15). -/
def Curve.keyBytes (c : Curve) : Nat := 4 * c.nwords

/-- The identifier CFG.CURVE reports (00_scope.md R12). -/
def Curve.id : Curve → Nat
  | .k163 => 0
  | .b163 => 1
  | .k233 => 2
  | .b233 => 3
  | .k283 => 4
  | .b283 => 5
  | .k409 => 6
  | .b409 => 7
  | .k571 => 8
  | .b571 => 9

/-- The coefficient a is 1 (00_scope.md R12; PRESUMED, log 7). -/
def Curve.aIsOne : Curve → Bool
  | .k163 => true
  | .b163 => true
  | .k233 => false
  | .b233 => true
  | .k283 => false
  | .b283 => true
  | .k409 => false
  | .b409 => true
  | .k571 => false
  | .b571 => true

/-- The cofactor h (00_scope.md R12; PRESUMED, log 7). -/
def Curve.cofactor : Curve → Nat
  | .k163 => 2
  | .b163 => 2
  | .k233 => 4
  | .b233 => 2
  | .k283 => 4
  | .b283 => 2
  | .k409 => 4
  | .b409 => 2
  | .k571 => 4
  | .b571 => 2

/-- `A` as a vector: ONE when a is 1, ZERO when a is 0 (43_point.md, head of the file). -/
def Curve.vecA (c : Curve) : Vec := if c.aIsOne then Vec.ONE else Vec.ZERO

/-- POLY, the reducing polynomial f = t^m + lower terms (10_state.md R53, R54).
The words are R54's, most significant first. PRESUMED (log 7): general knowledge in the spec itself. -/
def Curve.poly : Curve → Vec
  | .k163 =>
    0x00000008_00000000_00000000_00000000_00000000_000000C9#576
  | .b163 =>
    0x00000008_00000000_00000000_00000000_00000000_000000C9#576
  | .k233 =>
    0x00000200_00000000_00000000_00000000_00000000_00000400_00000000_00000001#576
  | .b233 =>
    0x00000200_00000000_00000000_00000000_00000000_00000400_00000000_00000001#576
  | .k283 =>
    0x08000000_00000000_00000000_00000000_00000000_00000000_00000000_00000000_000010A1#576
  | .b283 =>
    0x08000000_00000000_00000000_00000000_00000000_00000000_00000000_00000000_000010A1#576
  | .k409 =>
    0x02000000_00000000_00000000_00000000_00000000_00000000_00000000_00000000_00000000_00000000_00800000_00000000_00000001#576
  | .b409 =>
    0x02000000_00000000_00000000_00000000_00000000_00000000_00000000_00000000_00000000_00000000_00800000_00000000_00000001#576
  | .k571 =>
    0x08000000_00000000_00000000_00000000_00000000_00000000_00000000_00000000_00000000_00000000_00000000_00000000_00000000_00000000_00000000_00000000_00000000_00000425#576
  | .b571 =>
    0x08000000_00000000_00000000_00000000_00000000_00000000_00000000_00000000_00000000_00000000_00000000_00000000_00000000_00000000_00000000_00000000_00000000_00000425#576

/-- B, the curve coefficient b (10_state.md R53, R54).
The words are R54's, most significant first. PRESUMED (log 7): general knowledge in the spec itself. -/
def Curve.coeffB : Curve → Vec
  | .k163 =>
    0x00000000_00000000_00000000_00000000_00000000_00000001#576
  | .b163 =>
    0x00000002_0A601907_B8C953CA_1481EB10_512F7874_4A3205FD#576
  | .k233 =>
    0x00000000_00000000_00000000_00000000_00000000_00000000_00000000_00000001#576
  | .b233 =>
    0x00000066_647EDE6C_332C7F8C_0923BB58_213B333B_20E9CE42_81FE115F_7D8F90AD#576
  | .k283 =>
    0x00000000_00000000_00000000_00000000_00000000_00000000_00000000_00000000_00000001#576
  | .b283 =>
    0x027B680A_C8B8596D_A5A4AF8A_19A0303F_CA97FD76_45309FA2_A581485A_F6263E31_3B79A2F5#576
  | .k409 =>
    0x00000000_00000000_00000000_00000000_00000000_00000000_00000000_00000000_00000000_00000000_00000000_00000000_00000001#576
  | .b409 =>
    0x0021A5C2_C8EE9FEB_5C4B9A75_3B7B476B_7FD6422E_F1F3DD67_4761FA99_D6AC27C8_A9A197B2_72822F6C_D57A55AA_4F50AE31_7B13545F#576
  | .k571 =>
    0x00000000_00000000_00000000_00000000_00000000_00000000_00000000_00000000_00000000_00000000_00000000_00000000_00000000_00000000_00000000_00000000_00000000_00000001#576
  | .b571 =>
    0x02F40E7E_2221F295_DE297117_B7F3D62F_5C6A97FF_CB8CEFF1_CD6BA8CE_4A9A18AD_84FFABBD_8EFA5933_2BE7AD67_56A66E29_4AFD185A_78FF12AA_520E4DE7_39BACA0C_7FFEFF7F_2955727A#576

/-- GX, the x coordinate of the base point G (10_state.md R53, R54).
The words are R54's, most significant first. PRESUMED (log 7): general knowledge in the spec itself. -/
def Curve.baseX : Curve → Vec
  | .k163 =>
    0x00000002_FE13C053_7BBC11AC_AA07D793_DE4E6D5E_5C94EEE8#576
  | .b163 =>
    0x00000003_F0EBA162_86A2D57E_A0991168_D4994637_E8343E36#576
  | .k233 =>
    0x00000172_32BA853A_7E731AF1_29F22FF4_149563A4_19C26BF5_0A4C9D6E_EFAD6126#576
  | .b233 =>
    0x000000FA_C9DFCBAC_8313BB21_39F1BB75_5FEF65BC_391F8B36_F8F8EB73_71FD558B#576
  | .k283 =>
    0x0503213F_78CA4488_3F1A3B81_62F188E5_53CD265F_23C1567A_16876913_B0C2AC24_58492836#576
  | .b283 =>
    0x05F93925_8DB7DD90_E1934F8C_70B0DFEC_2EED25B8_557EAC9C_80E2E198_F8CDBECD_86B12053#576
  | .k409 =>
    0x0060F05F_658F49C1_AD3AB189_0F718421_0EFD0987_E307C84C_27ACCFB8_F9F67CC2_C460189E_B5AAAA62_EE222EB1_B35540CF_E9023746#576
  | .b409 =>
    0x015D4860_D088DDB3_496B0C60_64756260_441CDE4A_F1771D4D_B01FFE5B_34E59703_DC255A86_8A118051_5603AEAB_60794E54_BB7996A7#576
  | .k571 =>
    0x026EB7A8_59923FBC_82189631_F8103FE4_AC9CA297_0012D5D4_60248048_01841CA4_43709584_93B205E6_47DA304D_B4CEB08C_BBD1BA39_494776FB_988B4717_4DCA88C7_E2945283_A01C8972#576
  | .b571 =>
    0x0303001D_34B85629_6C16C0D4_0D3CD775_0A93D1D2_955FA80A_A5F40FC8_DB7B2ABD_BDE53950_F4C0D293_CDD711A3_5B67FB14_99AE6003_8614F139_4ABFA3B4_C850D927_E1E7769C_8EEC2D19#576

/-- GY, the y coordinate of the base point G (10_state.md R53, R54).
The words are R54's, most significant first. PRESUMED (log 7): general knowledge in the spec itself. -/
def Curve.baseY : Curve → Vec
  | .k163 =>
    0x00000002_89070FB0_5D38FF58_321F2E80_0536D538_CCDAA3D9#576
  | .b163 =>
    0x00000000_D51FBC6C_71A0094F_A2CDD545_B11C5C0C_797324F1#576
  | .k233 =>
    0x000001DB_537DECE8_19B7F70F_555A67C4_27A8CD9B_F18AEB9B_56E0C110_56FAE6A3#576
  | .b233 =>
    0x00000100_6A08A419_03350678_E58528BE_BF8A0BEF_F867A7CA_36716F7E_01F81052#576
  | .k283 =>
    0x01CCDA38_0F1C9E31_8D90F95D_07E5426F_E87E45C0_E8184698_E4596236_4E341161_77DD2259#576
  | .b283 =>
    0x03676854_FE24141C_B98FE6D4_B20D02B4_516FF702_350EDDB0_826779C8_13F0DF45_BE8112F4#576
  | .k409 =>
    0x01E36905_0B7C4E42_ACBA1DAC_BF04299C_3460782F_918EA427_E6325165_E9EA10E3_DA5F6C42_E9C55215_AA9CA27A_5863EC48_D8E0286B#576
  | .b409 =>
    0x0061B1CF_AB6BE5F3_2BBFA783_24ED106A_7636B9C5_A7BD198D_0158AA4F_5488D08F_38514F1F_DF4B4F40_D2181B36_81C364BA_0273C706#576
  | .k571 =>
    0x0349DC80_7F4FBF37_4F4AEADE_3BCA9531_4DD58CEC_9F307A54_FFC61EFC_006D8A2C_9D4979C0_AC44AEA7_4FBEBBB9_F772AEDC_B620B01A_7BA7AF1B_320430C8_591984F6_01CD4C14_3EF1C7A3#576
  | .b571 =>
    0x037BF273_42DA639B_6DCCFFFE_B73D69D7_8C6C27A6_009CBBCA_1980F853_3921E8A6_84423E43_BAB08A57_6291AF8F_461BB2A8_B3531D2F_0485C19B_16E2F151_6E23DD3C_1A4827AF_1B8AC15B#576

/-- N, the order n of the base point (10_state.md R53, R54).
The words are R54's, most significant first. PRESUMED (log 7): general knowledge in the spec itself. -/
def Curve.order : Curve → Vec
  | .k163 =>
    0x00000004_00000000_00000000_00020108_A2E0CC0D_99F8A5EF#576
  | .b163 =>
    0x00000004_00000000_00000000_000292FE_77E70C12_A4234C33#576
  | .k233 =>
    0x00000080_00000000_00000000_00000000_00069D5B_B915BCD4_6EFB1AD5_F173ABDF#576
  | .b233 =>
    0x00000100_00000000_00000000_00000000_0013E974_E72F8A69_22031D26_03CFE0D7#576
  | .k283 =>
    0x01FFFFFF_FFFFFFFF_FFFFFFFF_FFFFFFFF_FFFFE9AE_2ED07577_265DFF7F_94451E06_1E163C61#576
  | .b283 =>
    0x03FFFFFF_FFFFFFFF_FFFFFFFF_FFFFFFFF_FFFFEF90_399660FC_938A9016_5B042A7C_EFADB307#576
  | .k409 =>
    0x007FFFFF_FFFFFFFF_FFFFFFFF_FFFFFFFF_FFFFFFFF_FFFFFFFF_FFFFFE5F_83B2D4EA_20400EC4_557D5ED3_E3E7CA5B_4B5C83B8_E01E5FCF#576
  | .b409 =>
    0x01000000_00000000_00000000_00000000_00000000_00000000_000001E2_AAD6A612_F33307BE_5FA47C3C_9E052F83_8164CD37_D9A21173#576
  | .k571 =>
    0x02000000_00000000_00000000_00000000_00000000_00000000_00000000_00000000_00000000_131850E1_F19A63E4_B391A8DB_917F4138_B630D84B_E5D63938_1E91DEB4_5CFE778F_637C1001#576
  | .b571 =>
    0x03FFFFFF_FFFFFFFF_FFFFFFFF_FFFFFFFF_FFFFFFFF_FFFFFFFF_FFFFFFFF_FFFFFFFF_FFFFFFFF_E661CE18_FF559873_08059B18_6823851E_C7DD9CA1_161DE93D_5174D66E_8382E9BB_2FE84E47#576
/-- C[c], the read-only constant file (10_state.md R53). -/
def Curve.const (c : Curve) : ConstName → Vec
  | .poly => c.poly
  | .b => c.coeffB
  | .gx => c.baseX
  | .gy => c.baseY
  | .order => c.order

/-- G, the base point (C[2], C[3]) (10_state.md R53). -/
def Curve.basePoint (c : Curve) : Point := ⟨c.baseX, c.baseY⟩

/-- The index of a constant in the constant file (10_state.md R53). -/
def ConstName.index : ConstName → Nat
  | .poly => 0
  | .b => 1
  | .gx => 2
  | .gy => 3
  | .order => 4

/-- The constant of an index; indices above 4 name none (10_state.md R53, 30_encoding.md R90). -/
def ConstName.ofIndex : Nat → Option ConstName
  | 0 => some .poly
  | 1 => some .b
  | 2 => some .gx
  | 3 => some .gy
  | 4 => some .order
  | _ => none

end Sys2Proof
end

