-- ==== Sys2Proof/Syntax.lean ====
section
/-! DEFINITION. The syntax of the command set: one constructor per row of spec/opcode_table.json, with the
operands in the assembler's order (30_encoding.md R84, R93). -/

namespace Sys2Proof

/-- A vector register index 0..15 (30_encoding.md R83). -/
abbrev Reg := Fin 16

/-- A point pair: pair `p` is (R[2p], R[2p+1]), written p0, p2, …, p14 (10_state.md R32). The field of the
command word holds the even index 2p (30_encoding.md R89). -/
abbrev Pair := Fin 8

/-- imm10, a 10-bit unsigned immediate (30_encoding.md R82, R83). -/
abbrev Imm10 := BitVec 10

/-- A command of the engine. -/
inductive Instr where
  -- BitVector family, 41_bitvector.md
  | nop
  | getbit (rs1 : Reg) (imm : Imm10)
  | clrbit (rd : Reg) (imm : Imm10)
  | copy (rd rs1 : Reg)
  | swap (rd rs1 : Reg)
  | equal (rs1 rs2 : Reg)
  | iszero (rs1 : Reg)
  | setzero (rd : Reg)
  | degree (rs1 : Reg)
  | lshift (rd rs1 : Reg) (imm : Imm10)
  | ldc (rd : Reg) (c : ConstName)
  -- Field family, 42_field.md
  | fsetone (rd : Reg)
  | fisone (rs1 : Reg)
  | fadd (rd rs1 rs2 : Reg)
  | finc (rd : Reg)
  | fmul (rd rs1 rs2 : Reg)
  | finv (rd rs1 : Reg)
  | fred (rd rs1 : Reg)
  -- CurvePoint family, 43_point.md
  | piszero (ps : Pair)
  | pcopy (pd ps : Pair)
  | pdbl (pd : Pair)
  | padd (pd ps : Pair)
  | pmul (pd : Pair) (rk : Reg)
  | poncurve (ps : Pair)
  -- Protocol family, 44_protocol.md
  | keygen (pd : Pair) (rpriv : Reg)
  | ecdh (pd : Pair) (rpriv : Reg) (ppeer : Pair)
  | sign (pd : Pair) (rpriv rdig rnonce : Reg)
  | verify (ppub : Pair) (rdig : Reg) (psig : Pair)
deriving DecidableEq, Repr

/-- The x coordinate's register of a pair: the even one (10_state.md R32). -/
def Pair.rx (p : Pair) : Reg := ⟨2 * p.val, by omega⟩

/-- The y coordinate's register of a pair: the odd one (10_state.md R32). -/
def Pair.ry (p : Pair) : Reg := ⟨2 * p.val + 1, by omega⟩

end Sys2Proof
end

