-- ==== Sys2Proof/Machine/Checks.lean ====
section
/-! DEFINITION. The checks on a command's operands that decide its decode verdict (30_encoding.md R90, R91).
WellFormed.lean and Decode.lean both use them. -/

namespace Sys2Proof

/-- Check 5 of 30_encoding.md R92, the immediate's range (R90). A bit index must lie in the vector; every
shift count is legal; an LDC index above 4 names no constant and cannot be written as an `Instr`. -/
def Instr.immInRange (c : Curve) : Instr → Bool
  | .nop => true
  | .getbit _ imm => decide (imm.toNat < c.cap)
  | .clrbit _ imm => decide (imm.toNat < c.cap)
  | .copy _ _ => true
  | .swap _ _ => true
  | .equal _ _ => true
  | .iszero _ => true
  | .setzero _ => true
  | .degree _ => true
  | .lshift _ _ _ => true
  | .ldc _ _ => true
  | .fsetone _ => true
  | .fisone _ => true
  | .fadd _ _ _ => true
  | .finc _ => true
  | .fmul _ _ _ => true
  | .finv _ _ => true
  | .fred _ _ => true
  | .piszero _ => true
  | .pcopy _ _ => true
  | .pdbl _ => true
  | .padd _ _ => true
  | .pmul _ _ => true
  | .poncurve _ => true
  | .keygen _ _ => true
  | .ecdh _ _ _ => true
  | .sign _ _ _ _ => true
  | .verify _ _ _ => true

/-- Check 6 of 30_encoding.md R92, a forbidden register overlap (R91): FMUL's destination on its right
operand, KEYGEN's private key inside its public-key pair. No other overlap is forbidden. -/
def Instr.aliased : Instr → Bool
  | .nop => false
  | .getbit _ _ => false
  | .clrbit _ _ => false
  | .copy _ _ => false
  | .swap _ _ => false
  | .equal _ _ => false
  | .iszero _ => false
  | .setzero _ => false
  | .degree _ => false
  | .lshift _ _ _ => false
  | .ldc _ _ => false
  | .fsetone _ => false
  | .fisone _ => false
  | .fadd _ _ _ => false
  | .finc _ => false
  | .fmul rd _ rs2 => decide (rd = rs2)
  | .finv _ _ => false
  | .fred _ _ => false
  | .piszero _ => false
  | .pcopy _ _ => false
  | .pdbl _ => false
  | .padd _ _ => false
  | .pmul _ _ => false
  | .poncurve _ => false
  | .keygen pd rpriv => decide (rpriv = pd.rx) || decide (rpriv = pd.ry)
  | .ecdh _ _ _ => false
  | .sign _ _ _ _ => false
  | .verify _ _ _ => false

end Sys2Proof
end

