-- ==== Sys2Proof/WellFormed.lean ====
section
/-! DEFINITION. The well-formed commands: those whose word passes all six decode checks (30_encoding.md R92).
Checks 1 to 4 hold of every `Instr` by its type. -/

namespace Sys2Proof

/-- A legal command of the build `c` (30_encoding.md R92). -/
abbrev Instr.wellFormed (c : Curve) (i : Instr) : Prop :=
  i.immInRange c = true ∧ i.aliased = false

end Sys2Proof
end

