-- ==== Sys2Proof/Decode.lean ====
section
/-! DEFINITION. The command word's fields, the decoder, the decode verdict and the encoder
(30_encoding.md R80 to R92). The decoder is total on any 32-bit word and rejects by name. -/

namespace Sys2Proof

/-! The fields of a command word (R81, R82). -/

/-- op, bits 7:0 (R80). -/
def opField (w : Word) : BitVec 8 := w.extractLsb' 0 8
/-- rd, bits 11:8 (R81, R82). -/
def rdField (w : Word) : BitVec 4 := w.extractLsb' 8 4
/-- rs1, bits 15:12 (R81, R82). -/
def rs1Field (w : Word) : BitVec 4 := w.extractLsb' 12 4
/-- rs2, bits 19:16 of format R (R81). -/
def rs2Field (w : Word) : BitVec 4 := w.extractLsb' 16 4
/-- rs3, bits 23:20 of format R (R81). -/
def rs3Field (w : Word) : BitVec 4 := w.extractLsb' 20 4
/-- The reserved bits 31:24 of format R (R81). -/
def highR (w : Word) : BitVec 8 := w.extractLsb' 24 8
/-- imm10, bits 25:16 of format I (R82). -/
def immField (w : Word) : Imm10 := w.extractLsb' 16 10
/-- The reserved bits 31:26 of format I (R82). -/
def highI (w : Word) : BitVec 6 := w.extractLsb' 26 6

/-- The check that made a word ILLEGAL, in the order of R92. All five raise the one fault ILLEGAL
(60_exceptions.md R180); the name is for the reader. -/
inductive Illegal where
  /-- check 1: the opcode is not assigned (R88). -/
  | opcode
  /-- check 2: a reserved high bit is set (R87). -/
  | highBits
  /-- check 3: an unused field is not zero (R86). -/
  | unusedField
  /-- check 4: a point field holds an odd index (R89). -/
  | oddPoint
  /-- check 5: the immediate is out of range (R90). -/
  | immRange
deriving DecidableEq, Repr

/-- The register a 4-bit field names (R83). -/
def regOf (f : BitVec 4) : Reg := f.toFin

/-- The pair a 4-bit point field names; an odd index names none (R83, R89). -/
def pairOf (f : BitVec 4) : Option Pair :=
  if f.getLsbD 0 then none else some ⟨f.toNat / 2, by omega⟩

/-- Checks 2 and 3 for a format R word, whose used fields are marked true (R86, R87). -/
def formatR (w : Word) (useRd useRs1 useRs2 useRs3 : Bool) (k : Except Illegal Instr) :
    Except Illegal Instr :=
  if highR w ≠ 0 then .error .highBits
  else if (!useRd && rdField w != 0) || (!useRs1 && rs1Field w != 0)
      || (!useRs2 && rs2Field w != 0) || (!useRs3 && rs3Field w != 0) then .error .unusedField
  else k

/-- Checks 2 and 3 for a format I word; every one uses imm10 (R86, R87). -/
def formatI (w : Word) (useRd useRs1 : Bool) (k : Except Illegal Instr) : Except Illegal Instr :=
  if highI w ≠ 0 then .error .highBits
  else if (!useRd && rdField w != 0) || (!useRs1 && rs1Field w != 0) then .error .unusedField
  else k

/-- Check 4 on one point field (R89). -/
def withPair (f : BitVec 4) (k : Pair → Except Illegal Instr) : Except Illegal Instr :=
  match pairOf f with
  | none => .error .oddPoint
  | some p => k p

/-- Check 5 on a bit index (R90). -/
def checkImm (c : Curve) (i : Instr) : Except Illegal Instr :=
  if i.immInRange c then .ok i else .error .immRange

/-- Check 5 on a constant index (R90). -/
def withConst (imm : Imm10) (k : ConstName → Instr) : Except Illegal Instr :=
  match ConstName.ofIndex imm.toNat with
  | none => .error .immRange
  | some n => .ok (k n)

/-- The command a word names, by the map of R84: checks 1 to 5 of R92, in their order, for the build `c`. -/
def decode (c : Curve) (w : Word) : Except Illegal Instr :=
  let rd := regOf (rdField w)
  let rs1 := regOf (rs1Field w)
  let rs2 := regOf (rs2Field w)
  let rs3 := regOf (rs3Field w)
  let imm := immField w
  match opField w with
  | 0x00#8 => formatR w false false false false (.ok .nop)
  | 0x01#8 => formatI w false true (checkImm c (.getbit rs1 imm))
  | 0x02#8 => formatI w true false (checkImm c (.clrbit rd imm))
  | 0x03#8 => formatR w true true false false (.ok (.copy rd rs1))
  | 0x04#8 => formatR w true true false false (.ok (.swap rd rs1))
  | 0x05#8 => formatR w false true true false (.ok (.equal rs1 rs2))
  | 0x06#8 => formatR w false true false false (.ok (.iszero rs1))
  | 0x07#8 => formatR w true false false false (.ok (.setzero rd))
  | 0x08#8 => formatR w false true false false (.ok (.degree rs1))
  | 0x09#8 => formatI w true true (.ok (.lshift rd rs1 imm))
  | 0x0A#8 => formatI w true false (withConst imm (fun n => .ldc rd n))
  | 0x10#8 => formatR w true false false false (.ok (.fsetone rd))
  | 0x11#8 => formatR w false true false false (.ok (.fisone rs1))
  | 0x12#8 => formatR w true true true false (.ok (.fadd rd rs1 rs2))
  | 0x13#8 => formatR w true false false false (.ok (.finc rd))
  | 0x14#8 => formatR w true true true false (.ok (.fmul rd rs1 rs2))
  | 0x15#8 => formatR w true true false false (.ok (.finv rd rs1))
  | 0x16#8 => formatR w true true false false (.ok (.fred rd rs1))
  | 0x20#8 => formatR w false true false false
      (withPair (rs1Field w) fun ps => .ok (.piszero ps))
  | 0x21#8 => formatR w true true false false
      (withPair (rdField w) fun pd => withPair (rs1Field w) fun ps => .ok (.pcopy pd ps))
  | 0x22#8 => formatR w true false false false
      (withPair (rdField w) fun pd => .ok (.pdbl pd))
  | 0x23#8 => formatR w true true false false
      (withPair (rdField w) fun pd => withPair (rs1Field w) fun ps => .ok (.padd pd ps))
  | 0x24#8 => formatR w true true false false
      (withPair (rdField w) fun pd => .ok (.pmul pd rs1))
  | 0x25#8 => formatR w false true false false
      (withPair (rs1Field w) fun ps => .ok (.poncurve ps))
  | 0x30#8 => formatR w true true false false
      (withPair (rdField w) fun pd => .ok (.keygen pd rs1))
  | 0x31#8 => formatR w true true true false
      (withPair (rdField w) fun pd => withPair (rs2Field w) fun pp => .ok (.ecdh pd rs1 pp))
  | 0x32#8 => formatR w true true true true
      (withPair (rdField w) fun pd => .ok (.sign pd rs1 rs2 rs3))
  | 0x33#8 => formatR w false true true true
      (withPair (rs1Field w) fun pp => withPair (rs3Field w) fun sg => .ok (.verify pp rs2 sg))
  | _ => .error .opcode

/-- The decode verdict: one of legal, ILLEGAL or ALIAS (R92); `overlap` is ALIAS. -/
inductive Verdict where
  | legal (i : Instr)
  | illegal
  | overlap
deriving DecidableEq, Repr

/-- All six checks of R92 in their order: ILLEGAL before ALIAS. -/
def verdict (c : Curve) (w : Word) : Verdict :=
  match decode c w with
  | .error _ => .illegal
  | .ok i => if i.aliased then .overlap else .legal i

/-- The command a table word of `nbits` bits names; the bits above `nbits` are 0. It answers what `decode`
reads for the build of `State.reset`. DESIGN CHOICE (log 10): the overlap check (ALIAS) is not part of it,
so FMUL r0, r0, r0 is read as that command, which the engine then rejects with ALIAS. -/
def decodeTableWord (nbits w : Nat) : Option Instr :=
  match decode Config.buildCurve (BitVec.ofNat 32 (w % 2 ^ nbits)) with
  | .error _ => none
  | .ok i => some i

/-! The encoder (R81, R82, R84). -/

/-- A format R word: `op | rd<<8 | rs1<<12 | rs2<<16 | rs3<<20` (R81). -/
def wordR (op : BitVec 8) (rd rs1 rs2 rs3 : BitVec 4) : Word :=
  op.setWidth 32 ||| rd.setWidth 32 <<< 8 ||| rs1.setWidth 32 <<< 12
    ||| rs2.setWidth 32 <<< 16 ||| rs3.setWidth 32 <<< 20

/-- A format I word: `op | rd<<8 | rs1<<12 | imm10<<16` (R82). -/
def wordI (op : BitVec 8) (rd rs1 : BitVec 4) (imm : Imm10) : Word :=
  op.setWidth 32 ||| rd.setWidth 32 <<< 8 ||| rs1.setWidth 32 <<< 12 ||| imm.setWidth 32 <<< 16

/-- The field of a register (R83). -/
def regBits (r : Reg) : BitVec 4 := BitVec.ofFin r

/-- The field of a point pair: the even index of its x register (R83, R89). -/
def pairBits (p : Pair) : BitVec 4 := BitVec.ofNat 4 (2 * p.val)

/-- The word of a command (R84). -/
def encode : Instr → Word
  | .nop => wordR 0x00#8 0 0 0 0
  | .getbit rs1 imm => wordI 0x01#8 0 (regBits rs1) imm
  | .clrbit rd imm => wordI 0x02#8 (regBits rd) 0 imm
  | .copy rd rs1 => wordR 0x03#8 (regBits rd) (regBits rs1) 0 0
  | .swap rd rs1 => wordR 0x04#8 (regBits rd) (regBits rs1) 0 0
  | .equal rs1 rs2 => wordR 0x05#8 0 (regBits rs1) (regBits rs2) 0
  | .iszero rs1 => wordR 0x06#8 0 (regBits rs1) 0 0
  | .setzero rd => wordR 0x07#8 (regBits rd) 0 0 0
  | .degree rs1 => wordR 0x08#8 0 (regBits rs1) 0 0
  | .lshift rd rs1 imm => wordI 0x09#8 (regBits rd) (regBits rs1) imm
  | .ldc rd n => wordI 0x0A#8 (regBits rd) 0 (BitVec.ofNat 10 n.index)
  | .fsetone rd => wordR 0x10#8 (regBits rd) 0 0 0
  | .fisone rs1 => wordR 0x11#8 0 (regBits rs1) 0 0
  | .fadd rd rs1 rs2 => wordR 0x12#8 (regBits rd) (regBits rs1) (regBits rs2) 0
  | .finc rd => wordR 0x13#8 (regBits rd) 0 0 0
  | .fmul rd rs1 rs2 => wordR 0x14#8 (regBits rd) (regBits rs1) (regBits rs2) 0
  | .finv rd rs1 => wordR 0x15#8 (regBits rd) (regBits rs1) 0 0
  | .fred rd rs1 => wordR 0x16#8 (regBits rd) (regBits rs1) 0 0
  | .piszero ps => wordR 0x20#8 0 (pairBits ps) 0 0
  | .pcopy pd ps => wordR 0x21#8 (pairBits pd) (pairBits ps) 0 0
  | .pdbl pd => wordR 0x22#8 (pairBits pd) 0 0 0
  | .padd pd ps => wordR 0x23#8 (pairBits pd) (pairBits ps) 0 0
  | .pmul pd rk => wordR 0x24#8 (pairBits pd) (regBits rk) 0 0
  | .poncurve ps => wordR 0x25#8 0 (pairBits ps) 0 0
  | .keygen pd rpriv => wordR 0x30#8 (pairBits pd) (regBits rpriv) 0 0
  | .ecdh pd rpriv ppeer => wordR 0x31#8 (pairBits pd) (regBits rpriv) (pairBits ppeer) 0
  | .sign pd rpriv rdig rnonce =>
      wordR 0x32#8 (pairBits pd) (regBits rpriv) (regBits rdig) (regBits rnonce)
  | .verify ppub rdig psig =>
      wordR 0x33#8 0 (pairBits ppub) (regBits rdig) (pairBits psig)

end Sys2Proof
end

