-- ==== Sys2Proof/Machine/State.lean ====
section
/-! DEFINITION. The state of the engine (10_state.md R59), its reset, and the reasons a step can stop. -/

namespace Sys2Proof.Machine

/-- STATUS.ECODE, the code of the fault that set ERR (10_state.md R38). The codes 6 to 15 are never
written, so the type has no value for them (log 14). -/
inductive ECode where
  /-- 0: no fault since reset. -/
  | none
  /-- 1: the command word is not a legal encoding (60_exceptions.md R180). -/
  | illegal
  /-- 2: a forbidden register overlap (60_exceptions.md R181). -/
  | overlap
  /-- 3: a field inverse of a non-invertible value (60_exceptions.md R182). -/
  | notInvertible
  /-- 4: a host write that would disturb a busy engine (60_exceptions.md R184). -/
  | overrun
  /-- 5: a host access of an unsupported width, alignment or offset (60_exceptions.md R185). -/
  | bus
deriving DecidableEq, Repr

/-- STATUS.PSTAT, the protocol status of the last command that completed (10_state.md R39). The codes 7 to
15 are never written, so the type has no value for them (log 14). -/
inductive PStat where
  | ok
  | weakPrivateKey
  | invalidPeerPublicKey
  | zeroNonce
  | degenerateSignature
  | invalidSignatureEncoding
  | signatureMismatch
deriving DecidableEq, Repr

/-- CTRL's stored bits (10_state.md R43); SRST always reads 0 and the reserved bits read 0. -/
structure Ctrl where
  /-- bit 0: the timing policy, 0 = Fast, 1 = Uniform. -/
  uniform : Bool
  /-- bit 1: the ECDH cofactor variant. -/
  cofv : Bool
  /-- bit 2: interrupt enable. -/
  ie : Bool
deriving DecidableEq, Repr

/-- The in-flight command (10_state.md R55): the accepted word and the snapshot of R0..R15
(60_exceptions.md R177). -/
structure Pending where
  word : Word
  snapshot : Vector Vec 16
deriving DecidableEq, Repr

/-- One thing that reaches the engine from outside (log 3). A width is in bits; an offset is a byte offset
from ENGINE_BASE. The written value of an access that is not 32 bits wide is never looked at
(20_memory.md R70). -/
inductive Input where
  /-- a host read (20_memory.md R60). -/
  | read (width : Nat) (off : Nat)
  /-- a host write (20_memory.md R60). -/
  | write (width : Nat) (off : Nat) (value : Word)
  /-- a point between two host accesses at which the engine takes its own step, if one is pending
  (20_memory.md R73, 60_exceptions.md R178). -/
  | engineStep
  /-- power-on, or the platform's reset input (70_reset_and_hazards.md R193). -/
  | hardReset
deriving DecidableEq, Repr

/-- Why a step of the MODEL stops. The spec's five faults are states of the machine (ERR and ECODE), not
stops; the two below stand only in states that no run from reset reaches. -/
inductive Fault where
  /-- raised by the engine's own step where BUSY is 1 and no command is pending. The spec has BUSY = 1 exactly
  when a command is pending (10_state.md R59), so no run reaches it. Safe. -/
  | busyWithoutPending
  /-- raised by the engine's own step where the pending word is not a legal command. A word becomes pending
  only if its verdict is legal (60_exceptions.md R177), so no run reaches it. Safe. -/
  | pendingNotLegal
deriving DecidableEq, Repr

/-- What the model gives no meaning to. -/
inductive Refusal where
  /-- a command with no meaning yet, by its mnemonic. No arm answers it. Safe. -/
  | notModelled (mnemonic : String)
  /-- raised by a host access at an offset of 0xC00 or above: it does not belong to the engine, and what it
  reaches is the platform's (20_memory.md R64). Safe. -/
  | outsideBlock (off : Nat)
deriving DecidableEq, Repr

/-- The state of the engine: the record of 10_state.md R59, and after it the model's own three fields. -/
structure State where
  /-- R0..R15, the vector registers (R31). -/
  R : Vector Vec 16
  /-- RES, the scalar result (R34). -/
  res : Word
  /-- STATUS.BUSY (R35). -/
  busy : Bool
  /-- STATUS.DONE (R36). -/
  done : Bool
  /-- STATUS.ERR (R37). -/
  err : Bool
  /-- STATUS.ECODE (R38). -/
  ecode : ECode
  /-- STATUS.PSTAT (R39). -/
  pstat : PStat
  /-- CTRL (R43). -/
  ctrl : Ctrl
  /-- CMD, the last command word accepted (R44). -/
  cmd : Word
  /-- FINFO, the information of the last fault (R45). -/
  finfo : Word
  /-- the in-flight command (R55). -/
  pending : Option Pending
  /-- MODEL: the build parameter CURVE. No step changes it. DESIGN CHOICE (log 1). -/
  curve : Curve
  /-- MODEL: what is still to reach the engine, in order. DESIGN CHOICE (log 3). -/
  inputs : List Input
  /-- MODEL: the word the last host access returned; none for a write. DESIGN CHOICE (log 3). -/
  rdata : Option Word
deriving DecidableEq, Repr

/-- The state of a build right after reset (10_state.md R58, 70_reset_and_hazards.md R194), nothing more to
come from outside. -/
def State.resetOf (c : Curve) : State where
  R := Vector.replicate 16 Vec.ZERO
  res := 0
  busy := false
  done := false
  err := false
  ecode := .none
  pstat := .ok
  ctrl := ⟨false, false, false⟩
  cmd := 0
  finfo := 0
  pending := none
  curve := c
  inputs := []
  rdata := none

/-- The machine right after reset (10_state.md R58), for the build the model names (log 1). -/
def State.reset : State := State.resetOf Config.buildCurve

end Sys2Proof.Machine
end

