-- ==== Sys2Proof/Machine/VecOps.lean ====
section
/-! DEFINITION. The primitive functions on vectors (00_scope.md R22, 41_bitvector.md R96 to R99) and the words
of a vector (20_memory.md R66). -/

namespace Sys2Proof

/-- `mask(L)`: the vector with bits L-1..0 set and all others clear (00_scope.md R22). -/
def vmask (l : Nat) : Vec := BitVec.ofNat 576 (2 ^ l - 1)

/-- `deg(v)`: 0 for ZERO, otherwise the index of the highest set bit plus 1 (00_scope.md R22, 41_bitvector.md
R97). -/
def deg (v : Vec) : Nat := if v = Vec.ZERO then 0 else Nat.log2 v.toNat + 1

/-- `lshift(v, n) = (v * 2^n) mod 2^CAP` (00_scope.md R22, 41_bitvector.md R98): bits moved to CAP or above
are discarded. -/
def lshift (c : Curve) (v : Vec) (n : Nat) : Vec := (v <<< n) &&& vmask c.cap

/-- `get_bit(v, i)` (41_bitvector.md R99). -/
def getBit (v : Vec) (i : Nat) : Bool := v.getLsbD i

/-- `clear_bit(v, i) = v & ~(ONE << i)` (41_bitvector.md R99). -/
def clearBit (v : Vec) (i : Nat) : Vec := v &&& ~~~(Vec.ONE <<< i)

/-- Word `w` of a vector: bits 32w+31..32w (20_memory.md R66). -/
def getWord (v : Vec) (w : Nat) : Word := v.extractLsb' (32 * w) 32

/-- `v` with its word `w` replaced, the other bits unchanged (20_memory.md R62). -/
def setWord (v : Vec) (w : Nat) (x : Word) : Vec :=
  (v &&& ~~~((0xFFFFFFFF#576) <<< (32 * w))) ||| (x.setWidth 576 <<< (32 * w))

/-- The NWORDS words of a vector, least-significant word first (20_memory.md R66). -/
def vecWords (c : Curve) (v : Vec) : List Word := (List.range c.nwords).map (getWord v)

/-- A vector of the build `c`: no bit at CAP or above is set (00_scope.md R21). -/
abbrev Vec.fits (c : Curve) (v : Vec) : Prop := v.toNat < 2 ^ c.cap

/-- A reduced vector: deg(v) <= m (00_scope.md R28). -/
abbrev Vec.reduced (c : Curve) (v : Vec) : Prop := deg v ≤ c.m

end Sys2Proof
end

