-- ==== Sys2Proof/Machine/Flags.lean ====
section
/-! DEFINITION. The words the control block shows (10_state.md R34 to R49): the codes and places of every
status and control bit, RES as a truth value, the identification words, and the interrupt output. -/

namespace Sys2Proof.Machine

/-- The 4-bit code of ECODE (10_state.md R38). -/
def ECode.code : ECode → BitVec 4
  | .none => 0
  | .illegal => 1
  | .overlap => 2
  | .notInvertible => 3
  | .overrun => 4
  | .bus => 5

/-- The 4-bit code of PSTAT (10_state.md R39). -/
def PStat.code : PStat → BitVec 4
  | .ok => 0
  | .weakPrivateKey => 1
  | .invalidPeerPublicKey => 2
  | .zeroNonce => 3
  | .degenerateSignature => 4
  | .invalidSignatureEncoding => 5
  | .signatureMismatch => 6

/-- One bit at place `n` of a word. -/
def flagAt (b : Bool) (n : Nat) : Word := (BitVec.ofBool b).setWidth 32 <<< n

/-- A truth value in RES: 1 for true, 0 for false (10_state.md R34). -/
def boolWord (b : Bool) : Word := flagAt b 0

/-- `zext_32(n)` (00_scope.md R24). -/
def zext32 (n : Nat) : Word := BitVec.ofNat 32 n

/-- STATUS: `BUSY | DONE<<1 | ERR<<2 | ECODE<<4 | PSTAT<<8` (10_state.md R40). -/
def State.statusWord (s : State) : Word :=
  flagAt s.busy 0 ||| flagAt s.done 1 ||| flagAt s.err 2
    ||| s.ecode.code.setWidth 32 <<< 4 ||| s.pstat.code.setWidth 32 <<< 8

/-- CTRL: UNIFORM bit 0, COFV bit 1, IE bit 2, every other bit reads 0 (10_state.md R43). -/
def Ctrl.word (k : Ctrl) : Word :=
  flagAt k.uniform 0 ||| flagAt k.cofv 1 ||| flagAt k.ie 2

/-- What a CTRL write without SRST stores: bits 2:0 (10_state.md R43). -/
def Ctrl.ofWord (v : Word) : Ctrl := ⟨v.getLsbD 0, v.getLsbD 1, v.getLsbD 2⟩

/-- SRST, bit 31 of a value written to CTRL (10_state.md R43). -/
def srst (v : Word) : Bool := v.getLsbD 31

/-- ID: `0x4632 << 16 | m` (10_state.md R41). -/
def idWord (c : Curve) : Word := 0x4632#32 <<< 16 ||| zext32 c.m

/-- CFG: NWORDS 4:0, A 5, H 8:6, CURVE 12:9, DEGN 22:13 (10_state.md R42). -/
def cfgWord (c : Curve) : Word :=
  zext32 c.nwords ||| flagAt c.aIsOne 5 ||| zext32 c.cofactor <<< 6 ||| zext32 c.id <<< 9
    ||| zext32 (deg c.order) <<< 13

/-- IRQ, the level output: `CTRL.IE & (STATUS.DONE | STATUS.ERR)` (10_state.md R49, 60_exceptions.md R187). -/
def State.irq (s : State) : Bool := s.ctrl.ie && (s.done || s.err)

/-- The timing policy CTRL.UNIFORM selects (00_scope.md R17). -/
def Ctrl.policy (k : Ctrl) : TimingPolicy := if k.uniform then .uniform else .fast

end Sys2Proof.Machine
end

