-- ==== Sys2Proof/Machine/Ops.lean ====
section
/-! DEFINITION. The named operations on the state: register access, the fault action (taking an exception),
reset (the only way back from one), acceptance of a command and the commit of its results. -/

namespace Sys2Proof.Machine

/-- `R[i]` (00_scope.md R23). -/
def State.reg (s : State) (r : Reg) : Vec := s.R[r]

/-- `R[i] <- v` (00_scope.md R23). -/
def State.setReg (s : State) (r : Reg) (v : Vec) : State := { s with R := s.R.set r v }

/-- Register writes in the order of the list. -/
def State.setRegs (s : State) : List (Reg × Vec) → State
  | [] => s
  | (r, v) :: rest => (s.setReg r v).setRegs rest

/-- The two writes of `P(p) <- Q` (00_scope.md R23). -/
def pairWrites (p : Pair) (q : Point) : List (Reg × Vec) := [(p.rx, q.x), (p.ry, q.y)]

/-- The fault action, `raise Fault(code, info)` (60_exceptions.md R183). It writes nothing else. -/
def State.raiseFault (s : State) (code : ECode) (info : Word) : State :=
  { s with
    err := true
    ecode := code
    finfo := info
    busy := false
    done := false
    pending := none }

/-- Reset, hard or soft (70_reset_and_hazards.md R193 to R195): every piece of the spec's state at its reset
value, the build kept. What is still to come from outside is no state of the engine and stays. This is
the only way out of the ERROR state (60_exceptions.md R179). -/
def State.engineReset (s : State) : State :=
  { State.resetOf s.curve with inputs := s.inputs }

/-- What a command leaves to be committed (60_exceptions.md R178): the register writes, RES if it writes it,
and PSTAT. -/
structure CmdResult where
  writes : List (Reg × Vec)
  res : Option Word
  pstat : PStat
deriving DecidableEq, Repr

/-- Results of a BitVector, Field or CurvePoint command that writes registers only: PSTAT is OK
(10_state.md R48), RES is not written (R47). -/
def CmdResult.regs (ws : List (Reg × Vec)) : CmdResult := ⟨ws, none, .ok⟩

/-- Results of a command that writes RES only, PSTAT OK (10_state.md R47, R48). -/
def CmdResult.scalar (v : Word) : CmdResult := ⟨[], some v, .ok⟩

/-- The commit of a command's results, all at once (60_exceptions.md R178). -/
def State.commit (s : State) (r : CmdResult) : State :=
  { s.setRegs r.writes with
    res := r.res.getD s.res
    pstat := r.pstat
    pending := none
    busy := false
    done := true }

/-- The word of the pending command; CMD where none is pending (log 5). While BUSY the two are one value. -/
def State.cmdWord (s : State) : Word :=
  match s.pending with
  | some p => p.word
  | none => s.cmd

/-- The end of a command (60_exceptions.md R172): its results are committed, or, where a `finv` met a
non-invertible value (`none`), NOT_INVERTIBLE is raised with the command word and nothing is committed
(60_exceptions.md R178, R182). -/
def State.finish (s : State) : Option CmdResult → Host.Outcome State Fault Refusal
  | some r => .next (s.commit r)
  | none => .next (s.raiseFault .notInvertible s.cmdWord)

/-- Acceptance of a word written to CMD, where ERR = 0 and BUSY = 0 (60_exceptions.md R177). -/
def State.accept (s : State) (w : Word) : State :=
  let s := { s with cmd := w, done := false }
  match verdict s.curve w with
  | .illegal => s.raiseFault .illegal w
  | .overlap => s.raiseFault .overlap w
  | .legal _ => { s with pending := some ⟨w, s.R⟩, busy := true }

end Sys2Proof.Machine
end

