-- ==== Sys2Proof/Machine/Operands.lean ====
section
/-! DEFINITION. The operand forms of a command: every register a command reads is read from its snapshot
(00_scope.md R27, 60_exceptions.md R177). -/

namespace Sys2Proof.Machine

/-- The operand snapshot: the one taken at acceptance; the registers themselves where no command is pending
(log 5). While BUSY the two are equal, because the data window is then read-only (20_memory.md R62). -/
def State.snapshot (s : State) : Vector Vec 16 :=
  match s.pending with
  | some p => p.snapshot
  | none => s.R

/-- A vector operand, `R[r]` of the snapshot (30_encoding.md R83). -/
def State.opd (s : State) (r : Reg) : Vec := s.snapshot[r]

/-- A point operand, `P(p)` of the snapshot (10_state.md R32). -/
def State.opdPoint (s : State) (p : Pair) : Point := ⟨s.opd p.rx, s.opd p.ry⟩

end Sys2Proof.Machine
end

