-- ==== Sys2Proof/Machine/Bus.lean ====
section
/-! DEFINITION. The register block and the host's accesses to it (20_memory.md R60 to R72, 60_exceptions.md
R175, R177, R184, R185). -/

namespace Sys2Proof.Machine

/-- The size of the register block: offsets 0x000 to 0xBFF (20_memory.md R60). -/
def blockSize : Nat := 0xC00

/-- The offset in the register block of a physical bus address, where the block sits at `engineBase`
(ENGINE_BASE, 00_scope.md R19); none outside the block (20_memory.md R64). -/
def offsetOf (engineBase addr : Nat) : Option Nat :=
  if engineBase ≤ addr ∧ addr < engineBase + blockSize then some (addr - engineBase) else none

/-- What a mapped offset names (20_memory.md R61). -/
inductive Loc where
  | id | cfg | ctrl | status | cmd | res | finfo
  /-- word `w` of R[r], in the data window (20_memory.md R62). -/
  | data (r : Reg) (w : Nat)
  /-- word `w` of a constant, in the constant window (20_memory.md R63). -/
  | const (n : ConstName) (w : Nat)
deriving DecidableEq, Repr

/-- The register block map (20_memory.md R61); none for an unmapped offset (R64). It is asked about
offsets that are multiples of 4. -/
def locate (c : Curve) (off : Nat) : Option Loc :=
  if off < 0x100 then
    match off with
    | 0x000 => some .id
    | 0x004 => some .cfg
    | 0x008 => some .ctrl
    | 0x00C => some .status
    | 0x010 => some .cmd
    | 0x014 => some .res
    | 0x018 => some .finfo
    | _ => none
  else
    let w := off % 0x80 / 4
    if c.nwords ≤ w then none
    else if off < 0x900 then some (.data (Fin.ofNat 16 ((off - 0x100) / 0x80)) w)
    else
      match ConstName.ofIndex ((off - 0x900) / 0x80) with
      | none => none
      | some n => some (.const n w)

/-- The byte offset of word `w` of R[r] in the data window (20_memory.md R62). -/
def dataOff (r : Reg) (w : Nat) : Nat := 0x100 + 0x80 * r.val + 4 * w

/-- The byte offset of word `w` of a constant in the constant window (20_memory.md R63). -/
def constOff (n : ConstName) (w : Nat) : Nat := 0x900 + 0x80 * n.index + 4 * w

/-- What a read of a mapped offset returns; it has no side effect (20_memory.md R61, R72). -/
def State.readLoc (s : State) : Loc → Word
  | .id => idWord s.curve
  | .cfg => cfgWord s.curve
  | .ctrl => s.ctrl.word
  | .status => s.statusWord
  | .cmd => s.cmd
  | .res => s.res
  | .finfo => s.finfo
  | .data r w => getWord (s.reg r) w
  | .const n w => getWord (s.curve.const n) w

/-- The word a 32-bit read at an offset returns; none where the offset is not aligned or not mapped
(20_memory.md R64, R70). -/
def State.readWord (s : State) (off : Nat) : Option Word :=
  if off % 4 = 0 then (locate s.curve off).map s.readLoc else none

/-- A write to a mapped offset (60_exceptions.md R175, step 3): CTRL (10_state.md R43), STATUS (R36, R40),
CMD (60_exceptions.md R177), a word of the data window (20_memory.md R62); OVERRUN while BUSY
(60_exceptions.md R184); BUS for a read-only location (R185). -/
def State.writeLoc (s : State) (off : Nat) (v : Word) : Loc → State
  | .ctrl =>
    if srst v then s.engineReset
    else if s.busy then s.raiseFault .overrun (zext32 off)
    else { s with ctrl := Ctrl.ofWord v }
  | .status => if v.getLsbD 1 then { s with done := false } else s
  | .cmd =>
    if s.err then s
    else if s.busy then s.raiseFault .overrun (zext32 off)
    else s.accept v
  | .data r w =>
    if s.busy then s.raiseFault .overrun (zext32 off)
    else s.setReg r (setWord (s.reg r) w v)
  | .id => s.raiseFault .bus (zext32 off)
  | .cfg => s.raiseFault .bus (zext32 off)
  | .res => s.raiseFault .bus (zext32 off)
  | .finfo => s.raiseFault .bus (zext32 off)
  | .const _ _ => s.raiseFault .bus (zext32 off)

/-- The location an access of `width` bits at `off` reaches; none is the fault BUS (60_exceptions.md R175,
steps 1 and 2). -/
def access (c : Curve) (width off : Nat) : Option Loc :=
  if width = 32 ∧ off % 4 = 0 then locate c off else none

/-- A host read (60_exceptions.md R175). A read that faults returns 0 (R185). -/
def hostRead (width off : Nat) (s : State) : Host.Outcome State Fault Refusal :=
  if blockSize ≤ off then .refused (.outsideBlock off)
  else
    match access s.curve width off with
    | none => .next { s.raiseFault .bus (zext32 off) with rdata := some 0 }
    | some l => .next { s with rdata := some (s.readLoc l) }

/-- A host write (60_exceptions.md R175). It returns nothing to the host. -/
def hostWrite (width off : Nat) (v : Word) (s : State) : Host.Outcome State Fault Refusal :=
  if blockSize ≤ off then .refused (.outsideBlock off)
  else
    match access s.curve width off with
    | none => .next { s.raiseFault .bus (zext32 off) with rdata := none }
    | some l => .next { s.writeLoc off v l with rdata := none }

end Sys2Proof.Machine
end

