-- ==== Sys2Proof/Machine/BitVector.lean ====
section
/-! DEFINITION. The BitVector family and NOP, opcodes 0x00 to 0x0A (41_bitvector.md R104 to R114). No command
of this file raises a fault at execution (R101). -/

namespace Sys2Proof.Machine

/-- NOP (41_bitvector.md R104). -/
def execNop (s : State) : Host.Outcome State Fault Refusal :=
  .next (s.commit (.regs []))

/-- GETBIT (41_bitvector.md R105). -/
def execGetbit (rs1 : Reg) (imm : Imm10) (s : State) : Host.Outcome State Fault Refusal :=
  .next (s.commit (.scalar (boolWord (getBit (s.opd rs1) imm.toNat))))

/-- CLRBIT (41_bitvector.md R106). -/
def execClrbit (rd : Reg) (imm : Imm10) (s : State) : Host.Outcome State Fault Refusal :=
  .next (s.commit (.regs [(rd, clearBit (s.opd rd) imm.toNat)]))

/-- COPY (41_bitvector.md R107). -/
def execCopy (rd rs1 : Reg) (s : State) : Host.Outcome State Fault Refusal :=
  .next (s.commit (.regs [(rd, s.opd rs1)]))

/-- SWAP (41_bitvector.md R108); both values are from the snapshot. -/
def execSwap (rd rs1 : Reg) (s : State) : Host.Outcome State Fault Refusal :=
  .next (s.commit (.regs [(rd, s.opd rs1), (rs1, s.opd rd)]))

/-- EQUAL (41_bitvector.md R109), over all bits of the vectors. -/
def execEqual (rs1 rs2 : Reg) (s : State) : Host.Outcome State Fault Refusal :=
  .next (s.commit (.scalar (boolWord (s.opd rs1 == s.opd rs2))))

/-- ISZERO (41_bitvector.md R110). -/
def execIszero (rs1 : Reg) (s : State) : Host.Outcome State Fault Refusal :=
  .next (s.commit (.scalar (boolWord (s.opd rs1 == Vec.ZERO))))

/-- SETZERO (41_bitvector.md R111). -/
def execSetzero (rd : Reg) (s : State) : Host.Outcome State Fault Refusal :=
  .next (s.commit (.regs [(rd, Vec.ZERO)]))

/-- DEGREE (41_bitvector.md R112). -/
def execDegree (rs1 : Reg) (s : State) : Host.Outcome State Fault Refusal :=
  .next (s.commit (.scalar (zext32 (deg (s.opd rs1)))))

/-- LSHIFT (41_bitvector.md R113); no reduction is applied. -/
def execLshift (rd rs1 : Reg) (imm : Imm10) (s : State) : Host.Outcome State Fault Refusal :=
  .next (s.commit (.regs [(rd, lshift s.curve (s.opd rs1) imm.toNat)]))

/-- LDC (41_bitvector.md R114). -/
def execLdc (rd : Reg) (n : ConstName) (s : State) : Host.Outcome State Fault Refusal :=
  .next (s.commit (.regs [(rd, s.curve.const n)]))

end Sys2Proof.Machine
end

