-- ==== Sys2Proof/Machine/Field.lean ====
section
/-! DEFINITION. The Field family, opcodes 0x10 to 0x16 (42_field.md): the functions `xtime`, `fmul`, `finv`
and `fred`, defined on every vector, reduced or not (R116), and the commands. -/

namespace Sys2Proof

/-- `xtime(v)`, the reduce step (42_field.md R117): only bit m of the shifted value is tested. -/
def xtime (c : Curve) (v : Vec) : Vec :=
  let w := lshift c v 1
  if w.getLsbD c.m then w ^^^ c.poly else w

/-- `n` turns of fmul's loop, from index `i` on (42_field.md R122). -/
def fmulLoop (c : Curve) (y : Vec) : (n i : Nat) → (tmp z : Vec) → Vec
  | 0, _, _, z => z
  | n + 1, i, tmp, z =>
    let tmp' := xtime c tmp
    fmulLoop c y n (i + 1) tmp' (if y.getLsbD i then z ^^^ tmp' else z)

/-- `fmul(x, y)` (42_field.md R122): m - 1 turns whatever the operands; bits of y at m and above are never
read. -/
def fmul (c : Curve) (x y : Vec) : Vec :=
  fmulLoop c y (c.m - 1) 1 x (if y.getLsbD 0 then x else Vec.ZERO)

/-- At most `fuel` tests of finv's loop condition (42_field.md R124); none is NOT_INVERTIBLE. -/
def finvLoop (c : Curve) : (fuel : Nat) → (u v g z : Vec) → Option Vec
  | 0, _, _, _, _ => none
  | fuel + 1, u, v, g, z =>
    if u = Vec.ONE then some z
    else if u = Vec.ZERO ∨ v = Vec.ZERO then none
    else if deg u < deg v then
      let i := deg v - deg u
      finvLoop c fuel (v ^^^ lshift c u i) u z (g ^^^ lshift c z i)
    else
      let i := deg u - deg v
      finvLoop c fuel (u ^^^ lshift c v i) v g (z ^^^ lshift c g i)

/-- `finv(x)` (42_field.md R124); none is the fault NOT_INVERTIBLE. Every turn of the loop lowers
deg(u) + deg(v) by at least 1 (R130), so that the fuel below never runs out (log 6). -/
def finv (c : Curve) (x : Vec) : Option Vec :=
  finvLoop c (deg x + deg c.poly + 1) x c.poly Vec.ZERO Vec.ONE

/-- At most `fuel` turns of fred's loop (42_field.md R126). -/
def fredLoop (c : Curve) : (fuel : Nat) → (v : Vec) → Vec
  | 0, v => v
  | fuel + 1, v =>
    if c.m < deg v then fredLoop c fuel (v ^^^ lshift c c.poly (deg v - 1 - c.m)) else v

/-- `fred(v)`, full reduction modulo f (42_field.md R126). Every turn clears the highest set bit, so that
deg(v) turns are enough (log 6). -/
def fred (c : Curve) (v : Vec) : Vec := fredLoop c (deg v) v

namespace Machine

/-- FSETONE (42_field.md R118). -/
def execFsetone (rd : Reg) (s : State) : Host.Outcome State Fault Refusal :=
  .next (s.commit (.regs [(rd, Vec.ONE)]))

/-- FISONE (42_field.md R119), over all bits of the vector. -/
def execFisone (rs1 : Reg) (s : State) : Host.Outcome State Fault Refusal :=
  .next (s.commit (.scalar (boolWord (s.opd rs1 == Vec.ONE))))

/-- FADD (42_field.md R120). -/
def execFadd (rd rs1 rs2 : Reg) (s : State) : Host.Outcome State Fault Refusal :=
  .next (s.commit (.regs [(rd, s.opd rs1 ^^^ s.opd rs2)]))

/-- FINC (42_field.md R121). -/
def execFinc (rd : Reg) (s : State) : Host.Outcome State Fault Refusal :=
  .next (s.commit (.regs [(rd, s.opd rd ^^^ Vec.ONE)]))

/-- FMUL (42_field.md R123). The word with rd = rs2 never gets here: it faults ALIAS at acceptance. -/
def execFmul (rd rs1 rs2 : Reg) (s : State) : Host.Outcome State Fault Refusal :=
  .next (s.commit (.regs [(rd, fmul s.curve (s.opd rs1) (s.opd rs2))]))

/-- FINV (42_field.md R125). -/
def execFinv (rd rs1 : Reg) (s : State) : Host.Outcome State Fault Refusal :=
  s.finish ((finv s.curve (s.opd rs1)).map fun v => .regs [(rd, v)])

/-- FRED (42_field.md R127). -/
def execFred (rd rs1 : Reg) (s : State) : Host.Outcome State Fault Refusal :=
  .next (s.commit (.regs [(rd, fred s.curve (s.opd rs1))]))

end Machine

end Sys2Proof
end

