-- ==== Sys2Proof/Machine/Point.lean ====
section
/-! DEFINITION. The CurvePoint family, opcodes 0x20 to 0x25 (43_point.md): the functions `is_identity`, `pdbl`,
`padd`, `pmul` and `on_curve`, defined on every pair of vectors (R132), and the commands. The value none
of a function is the fault NOT_INVERTIBLE, at the first `finv` that meets a non-invertible value
(60_exceptions.md R175). -/

namespace Sys2Proof

/-- `is_identity(x, y)` (43_point.md R132). -/
def isIdentity (p : Point) : Bool := p.x == Vec.ZERO && p.y == Vec.ZERO

/-- `pdbl(x, y)` (43_point.md R133), with the group law's last line (90_conflicts.md C2). -/
def pdbl (c : Curve) (p : Point) : Option Point :=
  if p.x = Vec.ZERO then some Point.O
  else
    match finv c p.x with
    | none => none
    | some xi =>
      let l := fmul c xi p.y ^^^ p.x
      let nx := fmul c l l ^^^ l ^^^ c.vecA
      some ⟨nx, fmul c p.x p.x ^^^ fmul c (l ^^^ Vec.ONE) nx⟩

/-- The slope case of `padd`, for points with different x (43_point.md R134). -/
def paddChord (c : Curve) (p q : Point) : Option Point :=
  let a := p.y ^^^ q.y
  let b := p.x ^^^ q.x
  match finv c b with
  | none => none
  | some bi =>
    let k := fmul c bi a
    let d := fmul c k k ^^^ k ^^^ b ^^^ c.vecA
    let t := p.x ^^^ d
    some ⟨d, p.y ^^^ (fmul c t k ^^^ d)⟩

/-- `padd(x1, y1, x2, y2)` (43_point.md R134). -/
def padd (c : Curve) (p q : Point) : Option Point :=
  if isIdentity q then some p
  else if isIdentity p then some q
  else if p.x = q.x then
    if p.y = q.y then pdbl c p else some Point.O
  else paddChord c p q

/-- pmul's loop over the bits n-1..0 of the scalar (43_point.md R135). -/
def pmulLoop (c : Curve) (p : Point) (k : Vec) : (n : Nat) → (acc : Point) → Option Point
  | 0, acc => some acc
  | n + 1, acc =>
    match pdbl c acc with
    | none => none
    | some dbl =>
      if k.getLsbD n then
        match padd c dbl p with
        | none => none
        | some sum => pmulLoop c p k n sum
      else pmulLoop c p k n dbl

/-- `pmul(x, y, k)` (43_point.md R135): the scalar is used over all bits, with no reduction. -/
def pmul (c : Curve) (p : Point) (k : Vec) : Option Point := pmulLoop c p k (deg k) Point.O

/-- `on_curve(x, y)` (43_point.md R136), with full-capacity equality. -/
def onCurve (c : Curve) (p : Point) : Bool :=
  if isIdentity p then true
  else
    let x2 := fmul c p.x p.x
    let t := if c.aIsOne then x2 ^^^ fmul c x2 p.x else fmul c x2 p.x
    t ^^^ c.coeffB ^^^ fmul c p.y p.y == fmul c p.x p.y

namespace Machine

/-- PISZERO (43_point.md R137). -/
def execPiszero (ps : Pair) (s : State) : Host.Outcome State Fault Refusal :=
  .next (s.commit (.scalar (boolWord (isIdentity (s.opdPoint ps)))))

/-- PCOPY (43_point.md R138). -/
def execPcopy (pd ps : Pair) (s : State) : Host.Outcome State Fault Refusal :=
  .next (s.commit (.regs (pairWrites pd (s.opdPoint ps))))

/-- PDBL (43_point.md R139). -/
def execPdbl (pd : Pair) (s : State) : Host.Outcome State Fault Refusal :=
  s.finish ((pdbl s.curve (s.opdPoint pd)).map fun q => .regs (pairWrites pd q))

/-- PADD (43_point.md R140). -/
def execPadd (pd ps : Pair) (s : State) : Host.Outcome State Fault Refusal :=
  s.finish ((padd s.curve (s.opdPoint pd) (s.opdPoint ps)).map fun q => .regs (pairWrites pd q))

/-- PMUL (43_point.md R141). -/
def execPmul (pd : Pair) (rk : Reg) (s : State) : Host.Outcome State Fault Refusal :=
  s.finish ((pmul s.curve (s.opdPoint pd) (s.opd rk)).map fun q => .regs (pairWrites pd q))

/-- PONCURVE (43_point.md R142). -/
def execPoncurve (ps : Pair) (s : State) : Host.Outcome State Fault Refusal :=
  .next (s.commit (.scalar (boolWord (onCurve s.curve (s.opdPoint ps)))))

end Machine

end Sys2Proof
end

