-- ==== Sys2Proof/Machine/Protocol.lean ====
section
/-! DEFINITION. The Protocol family, opcodes 0x30 to 0x33 (44_protocol.md). A protocol check that fails is a
completion with RES = 0 and a nonzero PSTAT, never a fault (R160); only NOT_INVERTIBLE can fault. -/

namespace Sys2Proof

/-- `weak(p) = deg(p) < m / 2`, floor division (44_protocol.md R161). -/
def weak (c : Curve) (p : Vec) : Bool := decide (deg p < c.m / 2)

/-- `mask_n(v) = v & (2^LN - 1)` with LN = deg(N) (44_protocol.md R162). -/
def maskN (c : Curve) (v : Vec) : Vec := v &&& vmask (deg c.order)

/-- `valid_peer(x, y)` (44_protocol.md R164). -/
def validPeer (c : Curve) (q : Point) : Bool := !isIdentity q && onCurve c q

/-- `n` doublings. -/
def doublings (c : Curve) : Nat → Point → Option Point
  | 0, p => some p
  | n + 1, p =>
    match pdbl c p with
    | none => none
    | some q => doublings c n q

/-- `cofactor(S)`: log2(H) doublings (44_protocol.md R166). -/
def cofactorMul (c : Curve) (p : Point) : Option Point := doublings c (Nat.log2 c.cofactor) p

/-- ECDH's shared secret for a valid peer: the scalar multiple, and the cofactor step where COFV is 1
(44_protocol.md R165, R166). -/
def sharedSecret (c : Curve) (cofv : Bool) (priv : Vec) (q : Point) : Option Point :=
  match pmul c q priv with
  | none => none
  | some p => if cofv then cofactorMul c p else some p

/-- `s = finv(k) * (z + r * d)`, in field arithmetic (44_protocol.md R167, 90_conflicts.md C3). -/
def signS (c : Curve) (d k z r : Vec) : Option Vec :=
  match finv c k with
  | none => none
  | some ki => some (fmul c ki (z ^^^ fmul c r d))

/-- The point VERIFY recovers, `u1*G + u2*Q` (44_protocol.md R168, R169). -/
def verifyPoint (c : Curve) (q : Point) (z r w : Vec) : Option Point :=
  match pmul c c.basePoint (fmul c z w) with
  | none => none
  | some x1 =>
    match pmul c q (fmul c r w) with
    | none => none
    | some x2 => padd c x1 x2

namespace Machine

/-- A protocol check that failed and writes no register: RES <- 0, PSTAT <- the failure code
(44_protocol.md R160). -/
def CmdResult.failed (why : PStat) : CmdResult := ⟨[], some 0, why⟩

/-- A protocol command that succeeded: RES <- 1, PSTAT <- OK (44_protocol.md R160). -/
def CmdResult.success (ws : List (Reg × Vec)) : CmdResult := ⟨ws, some 1, .ok⟩

/-- What KEYGEN computes (44_protocol.md R163): the weak test on the unmasked scalar, then the mask, then
the multiple of G. -/
def keygenResult (c : Curve) (pd : Pair) (rpriv : Reg) (p : Vec) : Option CmdResult :=
  if weak c p then some (.failed .weakPrivateKey)
  else
    match pmul c c.basePoint (maskN c p) with
    | none => none
    | some q => some (.success ((rpriv, maskN c p) :: pairWrites pd q))

/-- What ECDH computes (44_protocol.md R165). -/
def ecdhResult (c : Curve) (cofv : Bool) (pd : Pair) (priv : Vec) (q : Point) : Option CmdResult :=
  if validPeer c q then
    match sharedSecret c cofv priv q with
    | none => none
    | some p => some (.success (pairWrites pd p))
  else some (.failed .invalidPeerPublicKey)

/-- What SIGN computes (44_protocol.md R167): the weak check before the zero nonce; (0, 0) or (r, 0) is
written for a degenerate signature. -/
def signResult (c : Curve) (pd : Pair) (d dig k : Vec) : Option CmdResult :=
  if weak c d then some (.failed .weakPrivateKey)
  else if k = Vec.ZERO then some (.failed .zeroNonce)
  else
    match pmul c c.basePoint k with
    | none => none
    | some q =>
      if q.x = Vec.ZERO then some ⟨pairWrites pd Point.O, some 0, .degenerateSignature⟩
      else
        match signS c d k (maskN c dig) q.x with
        | none => none
        | some t =>
          if t = Vec.ZERO then
            some ⟨pairWrites pd ⟨q.x, Vec.ZERO⟩, some 0, .degenerateSignature⟩
          else some (.success (pairWrites pd ⟨q.x, t⟩))

/-- What VERIFY computes (44_protocol.md R169); `sg` is (r, s). No register is written. -/
def verifyResult (c : Curve) (q : Point) (dig : Vec) (sg : Point) : Option CmdResult :=
  if sg.x = Vec.ZERO ∨ sg.y = Vec.ZERO then some (.failed .invalidSignatureEncoding)
  else
    match finv c sg.y with
    | none => none
    | some w =>
      match verifyPoint c q (maskN c dig) sg.x w with
      | none => none
      | some p => if p.x = sg.x then some (.success []) else some (.failed .signatureMismatch)

/-- KEYGEN (44_protocol.md R163). The word with rpriv in the pair never gets here: it faults ALIAS at
acceptance. -/
def execKeygen (pd : Pair) (rpriv : Reg) (s : State) : Host.Outcome State Fault Refusal :=
  s.finish (keygenResult s.curve pd rpriv (s.opd rpriv))

/-- ECDH (44_protocol.md R165); COFV is read from CTRL when the command completes (R166). -/
def execEcdh (pd : Pair) (rpriv : Reg) (ppeer : Pair) (s : State) :
    Host.Outcome State Fault Refusal :=
  s.finish (ecdhResult s.curve s.ctrl.cofv pd (s.opd rpriv) (s.opdPoint ppeer))

/-- SIGN (44_protocol.md R167). -/
def execSign (pd : Pair) (rpriv rdig rnonce : Reg) (s : State) :
    Host.Outcome State Fault Refusal :=
  s.finish (signResult s.curve pd (s.opd rpriv) (s.opd rdig) (s.opd rnonce))

/-- VERIFY (44_protocol.md R169). -/
def execVerify (ppub : Pair) (rdig : Reg) (psig : Pair) (s : State) :
    Host.Outcome State Fault Refusal :=
  s.finish (verifyResult s.curve (s.opdPoint ppub) (s.opd rdig) (s.opdPoint psig))

end Machine

end Sys2Proof
end

