-- ==== Sys2Proof/Machine/Dispatch.lean ====
section
/-! DEFINITION. The dispatch: the completion of a pending command, one arm per constructor of Instr
(60_exceptions.md R178). -/

namespace Sys2Proof.Machine

def exec (i : Instr) (s : State) : Host.Outcome State Fault Refusal :=
  match i with
  | .nop => Sys2Proof.Machine.execNop s
  | .getbit rs1 imm => Sys2Proof.Machine.execGetbit rs1 imm s
  | .clrbit rd imm => Sys2Proof.Machine.execClrbit rd imm s
  | .copy rd rs1 => Sys2Proof.Machine.execCopy rd rs1 s
  | .swap rd rs1 => Sys2Proof.Machine.execSwap rd rs1 s
  | .equal rs1 rs2 => Sys2Proof.Machine.execEqual rs1 rs2 s
  | .iszero rs1 => Sys2Proof.Machine.execIszero rs1 s
  | .setzero rd => Sys2Proof.Machine.execSetzero rd s
  | .degree rs1 => Sys2Proof.Machine.execDegree rs1 s
  | .lshift rd rs1 imm => Sys2Proof.Machine.execLshift rd rs1 imm s
  | .ldc rd n => Sys2Proof.Machine.execLdc rd n s
  | .fsetone rd => Sys2Proof.Machine.execFsetone rd s
  | .fisone rs1 => Sys2Proof.Machine.execFisone rs1 s
  | .fadd rd rs1 rs2 => Sys2Proof.Machine.execFadd rd rs1 rs2 s
  | .finc rd => Sys2Proof.Machine.execFinc rd s
  | .fmul rd rs1 rs2 => Sys2Proof.Machine.execFmul rd rs1 rs2 s
  | .finv rd rs1 => Sys2Proof.Machine.execFinv rd rs1 s
  | .fred rd rs1 => Sys2Proof.Machine.execFred rd rs1 s
  | .piszero ps => Sys2Proof.Machine.execPiszero ps s
  | .pcopy pd ps => Sys2Proof.Machine.execPcopy pd ps s
  | .pdbl pd => Sys2Proof.Machine.execPdbl pd s
  | .padd pd ps => Sys2Proof.Machine.execPadd pd ps s
  | .pmul pd rk => Sys2Proof.Machine.execPmul pd rk s
  | .poncurve ps => Sys2Proof.Machine.execPoncurve ps s
  | .keygen pd rpriv => Sys2Proof.Machine.execKeygen pd rpriv s
  | .ecdh pd rpriv ppeer => Sys2Proof.Machine.execEcdh pd rpriv ppeer s
  | .sign pd rpriv rdig rnonce => Sys2Proof.Machine.execSign pd rpriv rdig rnonce s
  | .verify ppub rdig psig => Sys2Proof.Machine.execVerify ppub rdig psig s

end Sys2Proof.Machine
end

