-- ==== Sys2Proof/Machine/Engine.lean ====
section
/-! DEFINITION. The engine's own step and the delivery of what reaches it from outside
(20_memory.md R73, 60_exceptions.md R178). -/

namespace Sys2Proof.Machine

/-- The engine's one own step (60_exceptions.md R178): while BUSY it completes the pending command; else it
has nothing to do. The two faults stand in states no run reaches (log 13). -/
def engineStep (s : State) : Host.Outcome State Fault Refusal :=
  if s.busy then
    match s.pending with
    | none => .fault .busyWithoutPending
    | some p =>
      match verdict s.curve p.word with
      | .legal i => exec i s
      | .illegal => .fault .pendingNotLegal
      | .overlap => .fault .pendingNotLegal
  else .next s

/-- One input takes effect, completely, before the next is looked at (20_memory.md R73). -/
def deliver (e : Input) (s : State) : Host.Outcome State Fault Refusal :=
  match e with
  | .read width off => hostRead width off s
  | .write width off v => hostWrite width off v s
  | .engineStep => engineStep s
  | .hardReset => .next s.engineReset

/-- The next thing that happens: the next input, or, when nothing more comes from outside, the engine's own
step, so that a pending command always completes (60_exceptions.md R178, 70_reset_and_hazards.md R203). -/
def advance (s : State) : Host.Outcome State Fault Refusal :=
  match s.inputs with
  | [] => engineStep s
  | e :: rest => deliver e { s with inputs := rest }

/-- The state in which the engine's next step runs the word `w`: `w` written to CMD with the engine IDLE
(60_exceptions.md R177), and the engine's own step the next input (log 5). -/
def State.submitted (s : State) (w : Word) : State :=
  let idle := { s with err := false, ecode := .none, busy := false, pending := none }
  { idle.accept w with inputs := .engineStep :: s.inputs }

end Sys2Proof.Machine
end

