-- ==== Sys2Proof/Machine/Step.lean ====
section
/-! DEFINITION. The step of the machine, and the placing of a command word as its next one. -/

namespace Sys2Proof.Machine

/-- One step: one host access, one reset, or the engine's own step (20_memory.md R73). -/
def step (s : State) : Host.Outcome State Fault Refusal := advance s

/-- `s` with the command word of `nbits` bits accepted, so that the next step runs it. It stands for the
host's write to CMD: the engine fetches nothing (10_state.md R33; log 5). -/
def State.withFetchWord (s : State) (nbits w : Nat) : State :=
  s.submitted (BitVec.ofNat 32 (w % 2 ^ nbits))

end Sys2Proof.Machine
end

