-- ==== Sys2Proof/Machine/HostBuffer.lean ====
section
/-! DEFINITION. The host's side of the interface: byte buffers and their layout (20_memory.md R67, R68), and
the access sequences a host uses (20_memory.md R67, 70_reset_and_hazards.md R198). HOST_BYTE_ORDER is an
argument: it is the host's, and no result of the engine depends on it (00_scope.md R20, log 9). -/

namespace Sys2Proof

/-- The four bytes of a word in the host's byte order, lowest address first (20_memory.md R67). -/
def wordBytes (o : ByteOrder) (w : Word) : List Byte :=
  match o with
  | .little => [w.extractLsb' 0 8, w.extractLsb' 8 8, w.extractLsb' 16 8, w.extractLsb' 24 8]
  | .big => [w.extractLsb' 24 8, w.extractLsb' 16 8, w.extractLsb' 8 8, w.extractLsb' 0 8]

/-- A native 32-bit load of four bytes (20_memory.md R67). -/
def bytesWord (o : ByteOrder) (b0 b1 b2 b3 : Byte) : Word :=
  match o with
  | .little => b3 ++ b2 ++ b1 ++ b0
  | .big => b0 ++ b1 ++ b2 ++ b3

/-- The words of a buffer, four bytes each. -/
def bytesWords (o : ByteOrder) : List Byte → List Word
  | b0 :: b1 :: b2 :: b3 :: rest => bytesWord o b0 b1 b2 b3 :: bytesWords o rest
  | _ => []

/-- The vector of an array of words, least-significant word first (20_memory.md R66). -/
def vecOfWords : List Word → Vec
  | [] => Vec.ZERO
  | w :: ws => w.setWidth 576 ||| vecOfWords ws <<< 32

/-- The buffer of one vector: KEYBYTES bytes (20_memory.md R67). -/
def vecBytes (o : ByteOrder) (c : Curve) (v : Vec) : List Byte :=
  (vecWords c v).flatMap (wordBytes o)

/-- The vector of a buffer; a buffer of another size than KEYBYTES is rejected
(93_implementation_defined.md U2). -/
def vecOfBytes (o : ByteOrder) (c : Curve) (bs : List Byte) : Option Vec :=
  if bs.length = c.keyBytes then some (vecOfWords (bytesWords o bs)) else none

/-- A public-key or signature buffer: x then y, or r then s (20_memory.md R68). -/
def pointBytes (o : ByteOrder) (c : Curve) (p : Point) : List Byte :=
  vecBytes o c p.x ++ vecBytes o c p.y

/-- The pair of vectors of a public-key or signature buffer (20_memory.md R68). -/
def pointOfBytes (o : ByteOrder) (c : Curve) (bs : List Byte) : Option Point :=
  match vecOfBytes o c (bs.take c.keyBytes), vecOfBytes o c (bs.drop c.keyBytes) with
  | some x, some y => some ⟨x, y⟩
  | _, _ => none

namespace Machine

/-- The host's writes that move a vector into R[r], word by word (20_memory.md R67, R71). -/
def storeVec (c : Curve) (r : Reg) (v : Vec) : List Input :=
  (List.range c.nwords).map fun w => .write 32 (dataOff r w) (getWord v w)

/-- The host's reads of R[r], word by word (20_memory.md R71). -/
def fetchVec (c : Curve) (r : Reg) : List Input :=
  (List.range c.nwords).map fun w => .read 32 (dataOff r w)

/-- The host routine `run(word)` (70_reset_and_hazards.md R198): the word to CMD, `polls` reads of STATUS
while the command is pending, its completion, and the read of STATUS that shows BUSY = 0. -/
def hostRun (w : Word) (polls : Nat) : List Input :=
  .write 32 0x010 w :: (List.replicate polls (.read 32 0x00C) ++ [.engineStep, .read 32 0x00C])

end Machine

end Sys2Proof
end

