-- ==== Sys2Proof/Machine/Timing.lean ====
section
/-! DEFINITION. The code shapes of the two timing policies (41_bitvector.md R97, R100; 42_field.md R122;
43_point.md R135). No result depends on the policy (00_scope.md R17, 70_reset_and_hazards.md R202), so the
meanings of the commands use the plain values; these shapes stand beside them, and statements say that
they give the same values (log 11). -/

namespace Sys2Proof

/-- Fast equality of word arrays: stops at the first word that differs (41_bitvector.md R100). -/
def equalWordsFast : List Word → List Word → Bool
  | [], [] => true
  | [], _ :: _ => false
  | _ :: _, [] => false
  | a :: as, b :: bs => if a = b then equalWordsFast as bs else false

/-- Uniform equality of word arrays: every word is touched, the differences are accumulated
(41_bitvector.md R100). -/
def diffWords (acc : Word) : List Word → List Word → Word
  | a :: as, b :: bs => diffWords (acc ||| (a ^^^ b)) as bs
  | _, _ => acc

/-- The equality test of EQUAL and of the tests inside other commands, by policy (41_bitvector.md R100). -/
def equalBy (p : TimingPolicy) (c : Curve) (a b : Vec) : Bool :=
  match p with
  | .fast => equalWordsFast (vecWords c a) (vecWords c b)
  | .uniform => diffWords 0 (vecWords c a) (vecWords c b) == 0

/-- The zero test, by policy (41_bitvector.md R100): the first nonzero word stops the fast one. -/
def isZeroBy (p : TimingPolicy) (c : Curve) (a : Vec) : Bool :=
  match p with
  | .fast => (vecWords c a).all (· == 0)
  | .uniform => (vecWords c a).foldl (· ||| ·) 0 == 0

/-- The scan for the highest set bit below bit `n` of a word: its index plus 1, or 0 (41_bitvector.md R97). -/
def bitScan (x : Word) : Nat → Nat
  | 0 => 0
  | n + 1 => if x.getLsbD n then n + 1 else bitScan x n

/-- The scan for the first nonzero word from word `n - 1` down (41_bitvector.md R97). -/
def wordScan (v : Vec) : Nat → Nat
  | 0 => 0
  | n + 1 => if getWord v n = 0 then wordScan v n else 32 * n + bitScan (getWord v n) 32

/-- The source's scan for the degree: from the most-significant word backward, skipping zero words, then by
bits in the first nonzero one (41_bitvector.md R97). -/
def degScan (c : Curve) (v : Vec) : Nat := wordScan v c.nwords

/-- fmul's loop under Uniform: where the bit is 0, an equivalent XOR of the zero blinding value
(42_field.md R122). -/
def fmulLoopUniform (c : Curve) (y : Vec) : (n i : Nat) → (tmp z : Vec) → Vec
  | 0, _, _, z => z
  | n + 1, i, tmp, z =>
    let tmp' := xtime c tmp
    fmulLoopUniform c y n (i + 1) tmp' (z ^^^ (if y.getLsbD i then tmp' else Vec.ZERO))

/-- `fmul` by policy (42_field.md R122). -/
def fmulBy (p : TimingPolicy) (c : Curve) (x y : Vec) : Vec :=
  match p with
  | .fast => fmul c x y
  | .uniform =>
    fmulLoopUniform c y (c.m - 1) 1 x (Vec.ZERO ^^^ (if y.getLsbD 0 then x else Vec.ZERO))

/-- pmul's loop under Uniform: the always-add variant, which adds the identity on a zero bit
(43_point.md R135). -/
def pmulLoopUniform (c : Curve) (p : Point) (k : Vec) : (n : Nat) → (acc : Point) → Option Point
  | 0, acc => some acc
  | n + 1, acc =>
    match pdbl c acc with
    | none => none
    | some dbl =>
      match padd c dbl (if k.getLsbD n then p else Point.O) with
      | none => none
      | some sum => pmulLoopUniform c p k n sum

/-- `pmul` by policy (43_point.md R135). -/
def pmulBy (p : TimingPolicy) (c : Curve) (q : Point) (k : Vec) : Option Point :=
  match p with
  | .fast => pmul c q k
  | .uniform => pmulLoopUniform c q k (deg k) Point.O

end Sys2Proof
end

