-- ==== Sys2Proof/Safety.lean ====
section
/-! DEFINITION. What counts as a sound state of the engine, what a completion and a fault leave, and the
algebra a vector stands for, in the terms the statements use. -/

namespace Sys2Proof.Machine

/-- The engine's three life-cycle states (60_exceptions.md R176). -/
inductive Life where
  | idle | busy | error
deriving DecidableEq, Repr

/-- The life-cycle state STATUS shows (60_exceptions.md R176). -/
def State.life (s : State) : Life :=
  if s.busy then .busy else if s.err then .error else .idle

/-- The invariant of the engine: what every state a run reaches satisfies. -/
structure State.Inv (s : State) : Prop where
  /-- A register holds a CAP-bit vector (10_state.md R31). -/
  regs_fit : ∀ r : Reg, (s.reg r).fits s.curve
  /-- A command is pending exactly while BUSY = 1 (10_state.md R59). -/
  pending_iff_busy : s.pending.isSome = s.busy
  /-- BUSY = 1 with ERR = 1 never occurs (60_exceptions.md R176). -/
  busy_not_err : s.busy = true → s.err = false
  /-- DONE is 0 while a command is pending (10_state.md R36). -/
  busy_not_done : s.busy = true → s.done = false
  /-- DONE is 0 in ERROR: a fault clears it and no command is accepted (10_state.md R36, R37). -/
  err_not_done : s.err = true → s.done = false
  /-- ECODE is written only together with ERR (10_state.md R38). -/
  err_iff_ecode : s.err = true ↔ s.ecode ≠ .none
  /-- The snapshot is the registers: nothing can write them while BUSY (20_memory.md R62). -/
  snapshot_eq : ∀ p : Pending, s.pending = some p → p.snapshot = s.R
  /-- CMD holds the pending word (10_state.md R44, 60_exceptions.md R184). -/
  word_eq : ∀ p : Pending, s.pending = some p → p.word = s.cmd
  /-- Only a legal command is accepted (60_exceptions.md R177). -/
  pending_legal : ∀ p : Pending, s.pending = some p → ∃ i, verdict s.curve p.word = .legal i

/-- What the completion of a command leaves (60_exceptions.md R172, R178): each register as `regs` says, RES,
PSTAT, the engine IDLE with DONE = 1; nothing else changes. -/
structure Completed (s t : State) (regs : Reg → Vec) (res : Word) (pstat : PStat) : Prop where
  regs : ∀ r, t.reg r = regs r
  res : t.res = res
  pstat : t.pstat = pstat
  busy : t.busy = false
  done : t.done = true
  pending : t.pending = none
  err : t.err = s.err
  ecode : t.ecode = s.ecode
  finfo : t.finfo = s.finfo
  cmd : t.cmd = s.cmd
  ctrl : t.ctrl = s.ctrl
  curve : t.curve = s.curve
  inputs : t.inputs = s.inputs
  rdata : t.rdata = s.rdata

/-- What a fault leaves (60_exceptions.md R174, R183): ERR, ECODE and FINFO written, BUSY and DONE cleared, no
command pending; nothing else changes. -/
structure Faulted (s t : State) (code : ECode) (info : Word) : Prop where
  err : t.err = true
  ecode : t.ecode = code
  finfo : t.finfo = info
  busy : t.busy = false
  done : t.done = false
  pending : t.pending = none
  regs : ∀ r, t.reg r = s.reg r
  res : t.res = s.res
  pstat : t.pstat = s.pstat
  ctrl : t.ctrl = s.ctrl
  cmd : t.cmd = s.cmd
  curve : t.curve = s.curve
  inputs : t.inputs = s.inputs

/-- The registers with one replaced. -/
def State.with1 (s : State) (r : Reg) (v : Vec) : Reg → Vec := Function.update s.reg r v

/-- The registers with a pair replaced by a point. -/
def State.withPoint (s : State) (p : Pair) (q : Point) : Reg → Vec :=
  Function.update (Function.update s.reg p.rx q.x) p.ry q.y

/-- The registers a command may write (30_encoding.md R84). -/
def dests : Instr → List Reg
  | .nop => []
  | .getbit _ _ => []
  | .clrbit rd _ => [rd]
  | .copy rd _ => [rd]
  | .swap rd rs1 => [rd, rs1]
  | .equal _ _ => []
  | .iszero _ => []
  | .setzero rd => [rd]
  | .degree _ => []
  | .lshift rd _ _ => [rd]
  | .ldc rd _ => [rd]
  | .fsetone rd => [rd]
  | .fisone _ => []
  | .fadd rd _ _ => [rd]
  | .finc rd => [rd]
  | .fmul rd _ _ => [rd]
  | .finv rd _ => [rd]
  | .fred rd _ => [rd]
  | .piszero _ => []
  | .pcopy pd _ => [pd.rx, pd.ry]
  | .pdbl pd => [pd.rx, pd.ry]
  | .padd pd _ => [pd.rx, pd.ry]
  | .pmul pd _ => [pd.rx, pd.ry]
  | .poncurve _ => []
  | .keygen pd rpriv => [rpriv, pd.rx, pd.ry]
  | .ecdh pd _ _ => [pd.rx, pd.ry]
  | .sign pd _ _ _ => [pd.rx, pd.ry]
  | .verify _ _ _ => []

/-- The eleven commands that write RES (10_state.md R47). -/
def writesRes : Instr → Bool
  | .nop => false
  | .getbit _ _ => true
  | .clrbit _ _ => false
  | .copy _ _ => false
  | .swap _ _ => false
  | .equal _ _ => true
  | .iszero _ => true
  | .setzero _ => false
  | .degree _ => true
  | .lshift _ _ _ => false
  | .ldc _ _ => false
  | .fsetone _ => false
  | .fisone _ => true
  | .fadd _ _ _ => false
  | .finc _ => false
  | .fmul _ _ _ => false
  | .finv _ _ => false
  | .fred _ _ => false
  | .piszero _ => true
  | .pcopy _ _ => false
  | .pdbl _ => false
  | .padd _ _ => false
  | .pmul _ _ => false
  | .poncurve _ => true
  | .keygen _ _ => true
  | .ecdh _ _ _ => true
  | .sign _ _ _ _ => true
  | .verify _ _ _ => true

/-- The same state under the other timing policy (10_state.md R43). -/
def State.withUniform (s : State) (b : Bool) : State :=
  { s with ctrl := { s.ctrl with uniform := b } }

/-- An outcome with its next state changed. -/
def mapNext (f : State → State) :
    Host.Outcome State Fault Refusal → Host.Outcome State Fault Refusal
  | .next t => .next (f t)
  | .fault r => .fault r
  | .refused r => .refused r

/-- `n` steps. -/
def runSteps (n : Nat) (s : State) : Host.Outcome State Fault Refusal := Host.Core.run Sys2Proof.core n s

end Sys2Proof.Machine

namespace Sys2Proof

/-- The binary polynomial a vector represents (00_scope.md R21): bit i is the coefficient of t^i. -/
noncomputable def toPoly (v : Vec) : Polynomial (ZMod 2) :=
  (List.range 576).foldr
    (fun i p => (if v.getLsbD i then Polynomial.X ^ i else 0) + p) 0

/-- Congruence modulo the reducing polynomial f (00_scope.md R28). -/
def congF (c : Curve) (p q : Polynomial (ZMod 2)) : Prop := toPoly c.poly ∣ p - q

/-- The negative of a point, (x, x + y) (30_encoding.md R94). -/
def negPoint (p : Point) : Point := ⟨p.x, p.x ^^^ p.y⟩

/-- Both coordinates are reduced (00_scope.md R28). -/
def Point.reduced (c : Curve) (p : Point) : Prop := p.x.reduced c ∧ p.y.reduced c

end Sys2Proof
end

