-- ==== Sys2Proof/Certificates/Slice0/Obligations.lean ====
section
/-! DEFINITION. The statements for the provers. Each docstring names the rule or the section of spec/ it comes
from; a clause that rests on a choice of the model says so and names the log entry. -/

open Sys2Proof Sys2Proof.Machine

/-! Vectors (41_bitvector.md). -/

/-- R97: deg is the index of the highest set bit plus 1, or 0 for ZERO, in 0..CAP; the source's scan, from the
most-significant word backward, gives that value. -/
def Obligations.DegreeIsIndexOfHighestSetBit : Prop :=
  ∀ (c : Curve) (v : Vec), v.fits c →
    (v = Vec.ZERO → deg v = 0) ∧
    (v ≠ Vec.ZERO → 0 < deg v ∧ v.getLsbD (deg v - 1) = true) ∧
    (∀ i, deg v ≤ i → v.getLsbD i = false) ∧
    deg v ≤ c.cap ∧ degScan c v = deg v

/-- R98: lshift is multiplication by 2^n modulo 2^CAP; a count of 0 returns the vector, a count of CAP or more
gives ZERO. -/
def Obligations.LshiftMultipliesByPowerOfTwo : Prop :=
  ∀ (c : Curve) (v : Vec) (n : Nat),
    (lshift c v n).toNat = v.toNat * 2 ^ n % 2 ^ c.cap ∧
    (v.fits c → lshift c v 0 = v) ∧
    (c.cap ≤ n → lshift c v n = Vec.ZERO)

/-- R99: get_bit reads bit i, clear_bit clears bit i and no other, and a GETBIT or CLRBIT word with an index at
CAP or above is rejected at decode. -/
def Obligations.BitIsReadAndCleared : Prop :=
  ∀ (c : Curve),
    (∀ (v : Vec) (i : Nat), i < c.cap →
      (getBit v i = true ↔ v.toNat / 2 ^ i % 2 = 1) ∧
      (clearBit v i).getLsbD i = false ∧
      (∀ j, j ≠ i → (clearBit v i).getLsbD j = v.getLsbD j)) ∧
    (∀ w : Word, (opField w = 0x01#8 ∨ opField w = 0x02#8) → c.cap ≤ (immField w).toNat →
      verdict c w = .illegal)

/-- R115: the laws of the BitVector family. SWAP applied twice is said of a state whose snapshot is its
registers, which the engine's invariant gives. -/
def Obligations.BitVectorLaws : Prop :=
  ∀ (c : Curve) (v : Vec),
    (deg v = 0 ↔ v = Vec.ZERO) ∧
    (∀ n, v.fits c → v ≠ Vec.ZERO → deg v + n ≤ c.cap → deg (lshift c v n) = deg v + n) ∧
    (∀ n k, lshift c (lshift c v n) k = lshift c v (n + k)) ∧
    (∀ i, getBit v i = true → i < deg v) ∧
    (∀ (a b : Reg) (s : State),
      (∃ t, exec (.equal a a) s = .next t ∧ t.res = 1) ∧
      exec (.equal a b) s = exec (.equal b a) s) ∧
    (∀ (a b : Reg) (s t u : State), s.snapshot = s.R →
      exec (.swap a b) s = .next t → exec (.swap a b) t = .next u → ∀ r, u.reg r = s.reg r)

/-! Encoding (30_encoding.md). -/

/-- Decode and encode agree, one way: the word of every well-formed command, with every operand at every value
its encoding admits, is legal and is that command (30_encoding.md, sections 1 to 4). -/
def Obligations.EncodedCommandIsLegal : Prop :=
  ∀ (c : Curve) (i : Instr), i.wellFormed c → verdict c (encode i) = .legal i

/-- Decode and encode agree, the other way: a legal word is exactly the encoding of the command it is read as,
every reserved and unused bit included, and that command is well formed (30_encoding.md R86, R87, R92). -/
def Obligations.LegalWordIsTheEncoding : Prop :=
  ∀ (c : Curve) (w : Word) (i : Instr),
    verdict c w = .legal i → encode i = w ∧ i.wellFormed c

/-- The example words of R93 decode to the commands R93 writes beside them. -/
def Obligations.ExampleWordsDecode : Prop :=
  verdict .k163 0x00032414#32 = .legal (.fmul 4 2 3) ∧
  verdict .k163 0x00212109#32 = .legal (.lshift 1 2 33#10) ∧
  verdict .k163 0x00006224#32 = .legal (.pmul 1 6) ∧
  verdict .k163 0x00654832#32 = .legal (.sign 4 4 5 6) ∧
  verdict .k163 0x00852033#32 = .legal (.verify 1 5 4) ∧
  verdict .k163 0x0002020A#32 = .legal (.ldc 2 .gx) ∧
  verdict .k163 0x00A23001#32 = .legal (.getbit 3 162#10) ∧
  verdict .k163 0x00000000#32 = .legal .nop

/-- R88: every opcode value not assigned is ILLEGAL. -/
def Obligations.UnassignedOpcodesAreIllegal : Prop :=
  ∀ (c : Curve) (w : Word),
    ((0x0B ≤ (opField w).toNat ∧ (opField w).toNat ≤ 0x0F) ∨
      (0x17 ≤ (opField w).toNat ∧ (opField w).toNat ≤ 0x1F) ∨
      (0x26 ≤ (opField w).toNat ∧ (opField w).toNat ≤ 0x2F) ∨
      0x34 ≤ (opField w).toNat) →
    verdict c w = .illegal

/-- R87: a nonzero bit in 31:24 of a format R word, or in 31:26 of a format I word (opcodes 01, 02, 09, 0A),
makes the word ILLEGAL. -/
def Obligations.ReservedHighBitsAreIllegal : Prop :=
  ∀ (c : Curve) (w : Word),
    ((opField w = 0x01#8 ∨ opField w = 0x02#8 ∨ opField w = 0x09#8 ∨ opField w = 0x0A#8) →
      w.extractLsb' 26 6 ≠ 0 → verdict c w = .illegal) ∧
    ((opField w ≠ 0x01#8 ∧ opField w ≠ 0x02#8 ∧ opField w ≠ 0x09#8 ∧ opField w ≠ 0x0A#8) →
      w.extractLsb' 24 8 ≠ 0 → verdict c w = .illegal)

/-- R89: a field in a point role (R84) holding an odd index makes the word ILLEGAL. -/
def Obligations.OddPointFieldsAreIllegal : Prop :=
  ∀ (c : Curve) (w : Word),
    ((opField w = 0x21#8 ∨ opField w = 0x22#8 ∨ opField w = 0x23#8 ∨ opField w = 0x24#8 ∨
        opField w = 0x30#8 ∨ opField w = 0x31#8 ∨ opField w = 0x32#8) →
      w.getLsbD 8 = true → verdict c w = .illegal) ∧
    ((opField w = 0x20#8 ∨ opField w = 0x21#8 ∨ opField w = 0x23#8 ∨ opField w = 0x25#8 ∨
        opField w = 0x33#8) →
      w.getLsbD 12 = true → verdict c w = .illegal) ∧
    (opField w = 0x31#8 → w.getLsbD 16 = true → verdict c w = .illegal) ∧
    (opField w = 0x33#8 → w.getLsbD 20 = true → verdict c w = .illegal)

/-- R90: a bit index at CAP or above and a constant index above 4 are ILLEGAL; every shift count is legal, and
a count at CAP or above gives ZERO. -/
def Obligations.ImmediateRanges : Prop :=
  ∀ (c : Curve),
    (∀ w : Word, (opField w = 0x01#8 ∨ opField w = 0x02#8) → c.cap ≤ (immField w).toNat →
      verdict c w = .illegal) ∧
    (∀ w : Word, opField w = 0x0A#8 → 4 < (immField w).toNat → verdict c w = .illegal) ∧
    (∀ (rd rs1 : Reg) (imm : Imm10),
      verdict c (encode (.lshift rd rs1 imm)) = .legal (.lshift rd rs1 imm) ∧
      (c.cap ≤ imm.toNat → ∀ s : State, s.curve = c →
        ∃ t, exec (.lshift rd rs1 imm) s = .next t ∧ t.reg rd = Vec.ZERO))

/-- R91: a word is ALIAS exactly when it is FMUL with rd = rs2 or KEYGEN with rs1 in {rd, rd + 1}; no other
overlap is forbidden. -/
def Obligations.ForbiddenOverlapsAreAlias : Prop :=
  ∀ (c : Curve) (w : Word),
    verdict c w = .overlap ↔
      (∃ rd rs1 : Reg, w = encode (.fmul rd rs1 rd)) ∨
      (∃ (pd : Pair) (r : Reg), w = encode (.keygen pd r) ∧ (r = pd.rx ∨ r = pd.ry))

/-! Life cycle, faults and reset (60_exceptions.md, 70_reset_and_hazards.md). -/

/-- 70_reset_and_hazards.md R194, R193: a hard reset sets every piece of state to its reset value and leaves the
engine IDLE, IRQ 0; the build is kept. That a reset is an input and leaves the later inputs as they are is the
model's choice (log 3). -/
def Obligations.HardResetSetsEveryPiece : Prop :=
  ∀ (s : State) (rest : List Input), s.inputs = .hardReset :: rest →
    ∃ t, step s = .next t ∧ (∀ r, t.reg r = Vec.ZERO) ∧ t.res = 0 ∧ t.statusWord = 0 ∧
      t.ctrl.word = 0 ∧ t.cmd = 0 ∧ t.finfo = 0 ∧ t.pending = none ∧ t.irq = false ∧
      t.life = .idle ∧ t.curve = s.curve ∧ t.inputs = rest

/-- R195: a write to CTRL with bit 31 set does what a hard reset does, in every state and whatever the other
bits are, and CTRL then reads 0. -/
def Obligations.SoftResetIsHardReset : Prop :=
  ∀ (s : State) (v : Word), v.getLsbD 31 = true →
    hostWrite 32 0x008 v s = deliver .hardReset s ∧
    ∃ t, hostWrite 32 0x008 v s = .next t ∧ t.err = false ∧ t.busy = false ∧ t.pending = none ∧
      t.readWord 0x008 = some 0

/-- 60_exceptions.md R179, 10_state.md R37: only a hard reset or a CTRL write with SRST clears ERR, and while
ERR = 1 a CMD write changes nothing (rdata, the model's own field, aside: log 3). -/
def Obligations.ErrorIsLeftOnlyByReset : Prop :=
  (∀ s t : State, s.err = true → step s = .next t →
    t.err = true ∨ s.inputs.head? = some .hardReset ∨
      ∃ v : Word, v.getLsbD 31 = true ∧ s.inputs.head? = some (.write 32 0x008 v)) ∧
  (∀ (s : State) (w : Word), s.err = true →
    hostWrite 32 0x010 w s = .next { s with rdata := none })

/-- R183: the fault action sets ERR, ECODE and FINFO, clears BUSY and DONE, aborts a pending command, and
writes nothing else. -/
def Obligations.FaultActionWritesNothingElse : Prop :=
  ∀ (s : State) (code : ECode) (info : Word),
    Faulted s (s.raiseFault code info) code info ∧ (s.raiseFault code info).rdata = s.rdata

/-- R177: what a CMD write does in every state. -/
def Obligations.AcceptanceOfACommandWord : Prop :=
  ∀ (s : State) (w : Word),
    (s.err = true → hostWrite 32 0x010 w s = .next { s with rdata := none }) ∧
    (s.err = false → s.busy = true →
      ∃ t, hostWrite 32 0x010 w s = .next t ∧ Faulted s t .overrun 0x010#32) ∧
    (s.err = false → s.busy = false → verdict s.curve w = .illegal →
      ∃ t, hostWrite 32 0x010 w s = .next t ∧
        Faulted { s with cmd := w, done := false } t .illegal w) ∧
    (s.err = false → s.busy = false → verdict s.curve w = .overlap →
      ∃ t, hostWrite 32 0x010 w s = .next t ∧
        Faulted { s with cmd := w, done := false } t .overlap w) ∧
    (∀ i, s.err = false → s.busy = false → verdict s.curve w = .legal i →
      hostWrite 32 0x010 w s = .next { s with
        cmd := w, done := false, pending := some ⟨w, s.R⟩, busy := true, rdata := none })

/-- A step runs the decoded command (60_exceptions.md R178): while a legal command is pending, the engine's own
step, where the schedule puts it or where nothing more comes from outside, is exec of that command. -/
def Obligations.StepRunsDecodedCommand : Prop :=
  ∀ (s : State) (p : Pending) (i : Instr),
    s.busy = true → s.pending = some p → verdict s.curve p.word = .legal i →
    (s.inputs = [] → step s = exec i s) ∧
    (∀ rest, s.inputs = .engineStep :: rest → step s = exec i { s with inputs := rest })

/-- A word placed by withFetchWord, legal for the state's build, is run by the very next step, on a snapshot of
the registers (60_exceptions.md R177, R178; that the placing clears ERROR is the model's choice, log 5). -/
def Obligations.PlacedWordRunsNext : Prop :=
  ∀ (s : State) (nbits n : Nat) (w : Word) (i : Instr),
    w = BitVec.ofNat 32 (n % 2 ^ nbits) → verdict s.curve w = .legal i →
    step (s.withFetchWord nbits n) = exec i { s with
      err := false, ecode := .none, cmd := w, done := false,
      pending := some ⟨w, s.R⟩, busy := true }

/-- 60_exceptions.md R172, 70_reset_and_hazards.md R203: every command ends, in exactly one of two ways:
completion (DONE = 1, ERR as before) or the fault NOT_INVERTIBLE with the command word, nothing committed. -/
def Obligations.EveryCommandEndsOneOfTwoWays : Prop :=
  ∀ (i : Instr) (s : State), ∃ t, exec i s = .next t ∧ t.busy = false ∧ t.pending = none ∧
    ((t.done = true ∧ t.err = s.err ∧ t.ecode = s.ecode ∧ t.finfo = s.finfo) ∨
      Faulted s t .notInvertible s.cmdWord)

/-- Every step keeps the invariant of the engine (10_state.md R31, R59; 60_exceptions.md R176, R177). -/
def Obligations.StepKeepsInvariant : Prop :=
  ∀ s t : State, s.Inv → step s = .next t → t.Inv

/-- The invariant holds right after reset, for every build (10_state.md R58; that `State.reset` is the K-163 build
is the model's choice, log 1). -/
def Obligations.InvariantHoldsAtReset : Prop :=
  State.reset.Inv ∧ ∀ c : Curve, (State.resetOf c).Inv

/-- 70_reset_and_hazards.md R203: from a sound state the machine always goes on; the model's one refusal is an
access the engine does not own, at 0xC00 or above (log 8), and its two faults never happen. -/
def Obligations.SoundStatesAlwaysGoOn : Prop :=
  ∀ s : State, s.Inv →
    (∃ t, step s = .next t) ∨
    (∃ width off rest, 0xC00 ≤ off ∧ step s = .refused (.outsideBlock off) ∧
      (s.inputs = .read width off :: rest ∨ ∃ v, s.inputs = .write width off v :: rest))

/-- R51: no command and no host access changes the curve parameters: they are those of the build, and no step
changes the build; every constant reads the same after a step. -/
def Obligations.CurveParametersNeverChange : Prop :=
  ∀ s t : State, step s = .next t →
    t.curve = s.curve ∧ ∀ n w, w < s.curve.nwords →
      t.readWord (constOff n w) = s.readWord (constOff n w)

/-! Frames of the commands. -/

/-- What no command changes (10_state.md R50, 60_exceptions.md R174, R178): a register outside its destinations,
RES unless it is one of the eleven that write it, CMD, CTRL, the build; and, through the host's reads, every
word of the register block but the NWORDS words of each of its destinations, STATUS, RES and FINFO. -/
def Obligations.CommandFrame : Prop :=
  ∀ (i : Instr) (s t : State), exec i s = .next t →
    (∀ r, r ∉ dests i → t.reg r = s.reg r) ∧
    (writesRes i = false → t.res = s.res) ∧
    t.cmd = s.cmd ∧ t.ctrl = s.ctrl ∧ t.curve = s.curve ∧ t.inputs = s.inputs ∧
    (∀ off, (∀ r w, r ∈ dests i → w < s.curve.nwords → off ≠ dataOff r w) → off ≠ 0x00C → off ≠ 0x014 → off ≠ 0x018 →
      t.readWord off = s.readWord off)

/-- R47: RES is written, at completion, by exactly the eleven listed commands: such a command leaves in RES a
value that does not depend on what RES held, and no other command writes RES. -/
def Obligations.ResIsWrittenByElevenCommands : Prop :=
  ∀ (i : Instr) (s : State),
    (writesRes i = true → ∀ (a b : Word) (t u : State),
      exec i { s with res := a } = .next t → exec i { s with res := b } = .next u →
      t.done = true → u.done = true ∧ t.res = u.res) ∧
    (writesRes i = false → ∀ t, exec i s = .next t → t.res = s.res)

/-- 10_state.md R48, R39: every command that completes writes PSTAT, whatever it held; a command below opcode
0x30 writes OK; a fault does not write it. -/
def Obligations.PstatIsWrittenByEveryCompletion : Prop :=
  ∀ (i : Instr) (s : State) (a b : PStat) (t u : State),
    exec i { s with pstat := a } = .next t → exec i { s with pstat := b } = .next u →
    (t.done = true → u.done = true ∧ t.pstat = u.pstat) ∧
    (t.done = true → (opField (encode i)).toNat < 0x30 → t.pstat = .ok) ∧
    (t.done = false → t.pstat = a)

/-- 00_scope.md R17, 70_reset_and_hazards.md R202: CTRL.UNIFORM has no architectural effect on any command. -/
def Obligations.UniformHasNoEffect : Prop :=
  ∀ (i : Instr) (s : State) (b : Bool),
    exec i (s.withUniform b) = mapNext (fun t => t.withUniform b) (exec i s)

/-! The register block (20_memory.md). -/

/-- 20_memory.md R72: a read of a mapped offset returns its word and changes nothing (rdata, the model's record
of what the host was given, aside: log 3); read again it returns the same. At 0x010, 0x014 and 0x018 the word
is CMD, RES and FINFO (20_memory.md R61, 10_state.md R44, R34, R45). -/
def Obligations.ReadsHaveNoSideEffect : Prop :=
  (∀ (s : State) (off : Nat) (v : Word), off < 0xC00 → s.readWord off = some v →
    hostRead 32 off s = .next { s with rdata := some v } ∧
    hostRead 32 off { s with rdata := some v } = .next { s with rdata := some v }) ∧
  ∀ s : State,
    hostRead 32 0x010 s = .next { s with rdata := some s.cmd } ∧
    hostRead 32 0x014 s = .next { s with rdata := some s.res } ∧
    hostRead 32 0x018 s = .next { s with rdata := some s.finfo }

/-- R62: the data window. A read returns the word of the register, BUSY or ERR or not; a write while BUSY = 0
replaces that word and nothing else; a write while BUSY = 1 faults with OVERRUN. -/
def Obligations.DataWindowReadsAndWrites : Prop :=
  ∀ (s : State) (r : Reg) (w : Nat) (v : Word), w < s.curve.nwords →
    hostRead 32 (0x100 + 0x80 * r.val + 4 * w) s =
      .next { s with rdata := some ((s.reg r).extractLsb' (32 * w) 32) } ∧
    (s.busy = false → ∃ x : Vec,
      hostWrite 32 (0x100 + 0x80 * r.val + 4 * w) v s =
        .next { s.setReg r x with rdata := none } ∧
      x.extractLsb' (32 * w) 32 = v ∧
      ∀ i, (i < 32 * w ∨ 32 * w + 32 ≤ i) → x.getLsbD i = (s.reg r).getLsbD i) ∧
    (s.busy = true → ∃ t,
      hostWrite 32 (0x100 + 0x80 * r.val + 4 * w) v s = .next t ∧
      Faulted s t .overrun (BitVec.ofNat 32 (0x100 + 0x80 * r.val + 4 * w)))

/-- R63: the constant window. A read returns the word of the constant; a write faults with BUS. -/
def Obligations.ConstantWindowIsReadOnly : Prop :=
  ∀ (s : State) (n : ConstName) (w : Nat) (v : Word), w < s.curve.nwords →
    hostRead 32 (0x900 + 0x80 * n.index + 4 * w) s =
      .next { s with rdata := some ((s.curve.const n).extractLsb' (32 * w) 32) } ∧
    ∃ t, hostWrite 32 (0x900 + 0x80 * n.index + 4 * w) v s = .next t ∧
      Faulted s t .bus (BitVec.ofNat 32 (0x900 + 0x80 * n.index + 4 * w))

/-- 20_memory.md R64, 60_exceptions.md R185: an unmapped offset of the block, read or written, faults with BUS,
and so does a write to ID, CFG, RES or FINFO; a read that faults returns 0. -/
def Obligations.UnmappedAndReadOnlyOffsetsFault : Prop :=
  ∀ (s : State) (off : Nat) (v : Word), off < 0xC00 → off % 4 = 0 →
    (((0x01C ≤ off ∧ off < 0x100) ∨ (0x100 ≤ off ∧ s.curve.nwords ≤ off % 0x80 / 4) ∨ 0xB80 ≤ off) →
      (∃ t, hostRead 32 off s = .next t ∧ Faulted s t .bus (BitVec.ofNat 32 off) ∧
        t.rdata = some 0) ∧
      (∃ t, hostWrite 32 off v s = .next t ∧ Faulted s t .bus (BitVec.ofNat 32 off))) ∧
    ((off = 0x000 ∨ off = 0x004 ∨ off = 0x014 ∨ off = 0x018) →
      ∃ t, hostWrite 32 off v s = .next t ∧ Faulted s t .bus (BitVec.ofNat 32 off))

/-- R70: an access of another width than 32 bits, or at an offset that is not a multiple of 4, faults with BUS
and has no other effect; a read that faults returns 0 (R185). -/
def Obligations.NarrowOrMisalignedAccessFaults : Prop :=
  ∀ (s : State) (width off : Nat) (v : Word), off < 0xC00 → (width ≠ 32 ∨ off % 4 ≠ 0) →
    (∃ t, hostRead width off s = .next t ∧ Faulted s t .bus (BitVec.ofNat 32 off) ∧
      t.rdata = some 0) ∧
    (∃ t, hostWrite width off v s = .next t ∧ Faulted s t .bus (BitVec.ofNat 32 off))

/-- R40: STATUS. Its layout, its value after reset, and the one effect of a write; with the numbers of the two
code tables the fields hold (10_state.md R38, R39). -/
def Obligations.StatusRegisterLayoutAndWrite : Prop :=
  (∀ s : State, ∃ w : Word, s.readWord 0x00C = some w ∧
    w.getLsbD 0 = s.busy ∧ w.getLsbD 1 = s.done ∧ w.getLsbD 2 = s.err ∧ w.getLsbD 3 = false ∧
    w.extractLsb' 4 4 = s.ecode.code ∧ w.extractLsb' 8 4 = s.pstat.code ∧
    w.extractLsb' 12 20 = 0) ∧
  (∀ (s : State) (v : Word),
    (v.getLsbD 1 = true → hostWrite 32 0x00C v s = .next { s with done := false, rdata := none }) ∧
    (v.getLsbD 1 = false → hostWrite 32 0x00C v s = .next { s with rdata := none })) ∧
  (∀ c : Curve, (State.resetOf c).readWord 0x00C = some 0) ∧
  (ECode.none.code = 0 ∧ ECode.illegal.code = 1 ∧ ECode.overlap.code = 2 ∧
    ECode.notInvertible.code = 3 ∧ ECode.overrun.code = 4 ∧ ECode.bus.code = 5) ∧
  (PStat.ok.code = 0 ∧ PStat.weakPrivateKey.code = 1 ∧ PStat.invalidPeerPublicKey.code = 2 ∧
    PStat.zeroNonce.code = 3 ∧ PStat.degenerateSignature.code = 4 ∧
    PStat.invalidSignatureEncoding.code = 5 ∧ PStat.signatureMismatch.code = 6)

/-- 10_state.md R43: CTRL. Its layout; a write without SRST stores bits 2:0 while BUSY = 0 and faults with
OVERRUN while BUSY = 1. -/
def Obligations.CtrlRegisterLayoutAndWrite : Prop :=
  ∀ (s : State) (v : Word),
    (∃ w : Word, s.readWord 0x008 = some w ∧ w.getLsbD 0 = s.ctrl.uniform ∧
      w.getLsbD 1 = s.ctrl.cofv ∧ w.getLsbD 2 = s.ctrl.ie ∧ w.extractLsb' 3 29 = 0) ∧
    (v.getLsbD 31 = false → s.busy = false →
      hostWrite 32 0x008 v s = .next { s with
        ctrl := ⟨v.getLsbD 0, v.getLsbD 1, v.getLsbD 2⟩, rdata := none }) ∧
    (v.getLsbD 31 = false → s.busy = true →
      ∃ t, hostWrite 32 0x008 v s = .next t ∧ Faulted s t .overrun 0x008#32)

/-- 10_state.md R41, R42: what ID and CFG read, field by field, for every build, and the two words of K-163. -/
def Obligations.IdentificationWords : Prop :=
  (∀ s : State, ∃ a b : Word, s.readWord 0x000 = some a ∧ s.readWord 0x004 = some b ∧
    (a.extractLsb' 16 16).toNat = 0x4632 ∧ (a.extractLsb' 0 16).toNat = s.curve.m ∧
    (b.extractLsb' 0 5).toNat = s.curve.nwords ∧ b.getLsbD 5 = s.curve.aIsOne ∧
    (b.extractLsb' 6 3).toNat = s.curve.cofactor ∧ (b.extractLsb' 9 4).toNat = s.curve.id ∧
    (b.extractLsb' 13 10).toNat = deg s.curve.order ∧ b.extractLsb' 23 9 = 0) ∧
  idWord .k163 = 0x463200A3#32 ∧ cfgWord .k163 = 0x001460A6#32

/-- R49: the interrupt output. It is IE and (DONE or ERR); a STATUS write with bit 1 set, or the acceptance of
a command, clears a completion interrupt; an error interrupt stays until a reset or until IE is cleared. -/
def Obligations.InterruptOutput : Prop :=
  (∀ s : State, s.irq = true ↔ s.ctrl.ie = true ∧ (s.done = true ∨ s.err = true)) ∧
  (∀ (s t : State) (v : Word), v.getLsbD 1 = true → s.err = false →
    hostWrite 32 0x00C v s = .next t → t.irq = false) ∧
  (∀ (s t : State) (w : Word) (i : Instr), s.err = false → s.busy = false →
    verdict s.curve w = .legal i → hostWrite 32 0x010 w s = .next t → t.irq = false) ∧
  (∀ s t : State, s.err = true → s.irq = true → step s = .next t →
    t.irq = true ∨ s.inputs.head? = some .hardReset ∨
      ∃ v : Word, s.inputs.head? = some (.write 32 0x008 v) ∧
        (v.getLsbD 31 = true ∨ v.getLsbD 2 = false))

/-- R184: while BUSY = 1 a CMD write, a CTRL write with bit 31 = 0 and a data-window write raise OVERRUN, have no
effect of their own and abort the pending command; reads of mapped offsets, STATUS writes and CTRL writes
with bit 31 = 1 do not raise it. -/
def Obligations.OverrunAbortsThePendingCommand : Prop :=
  ∀ (s : State) (v : Word), s.busy = true → s.err = false →
    (∃ t, hostWrite 32 0x010 v s = .next t ∧ Faulted s t .overrun 0x010#32) ∧
    (v.getLsbD 31 = false →
      ∃ t, hostWrite 32 0x008 v s = .next t ∧ Faulted s t .overrun 0x008#32) ∧
    (∀ (r : Reg) (w : Nat), w < s.curve.nwords →
      ∃ t, hostWrite 32 (dataOff r w) v s = .next t ∧
        Faulted s t .overrun (BitVec.ofNat 32 (dataOff r w))) ∧
    (∀ off x, off < 0xC00 → s.readWord off = some x →
      ∃ t, hostRead 32 off s = .next t ∧ t.err = false ∧ t.pending = s.pending) ∧
    (∃ t, hostWrite 32 0x00C v s = .next t ∧ t.err = false ∧ t.pending = s.pending) ∧
    (v.getLsbD 31 = true → ∃ t, hostWrite 32 0x008 v s = .next t ∧ t.err = false)

/-- 20_memory.md R67, R69: a host that writes the NWORDS words of a vector through the data window leaves exactly
that vector in the register, no other register changed, and reads the same words back. -/
def Obligations.VectorStoredThroughTheWindow : Prop :=
  ∀ (s : State) (r : Reg) (v : Vec), s.busy = false → v.fits s.curve → (s.reg r).fits s.curve →
    s.inputs = storeVec s.curve r v →
    ∃ t, runSteps s.curve.nwords s = .next t ∧ t.inputs = [] ∧ t.reg r = v ∧
      (∀ q, q ≠ r → t.reg q = s.reg q) ∧
      ∀ w, w < s.curve.nwords → t.readWord (dataOff r w) = some (getWord v w)

/-- 20_memory.md R67, R68, under either byte order: where each byte of a buffer comes from, the buffer's size,
that a buffer read back is the vector, and that a point's buffer is the bytes of x (or r) and then those of
y (or s). -/
def Obligations.HostBufferLayout : Prop :=
  ∀ (c : Curve) (v : Vec), v.fits c →
    (∀ j, j < c.keyBytes → (vecBytes .little c v)[j]? = some (v.extractLsb' (8 * j) 8)) ∧
    (∀ w k, w < c.nwords → k < 4 →
      (vecBytes .big c v)[4 * w + k]? = some (v.extractLsb' (32 * w + 24 - 8 * k) 8)) ∧
    (∀ o : ByteOrder, (vecBytes o c v).length = c.keyBytes ∧
      vecOfBytes o c (vecBytes o c v) = some v ∧
      ∀ u : Vec, u.fits c →
        pointBytes o c ⟨v, u⟩ = vecBytes o c v ++ vecBytes o c u ∧
        pointOfBytes o c (pointBytes o c ⟨v, u⟩) = some ⟨v, u⟩)

/-- 60_exceptions.md R178, 70_reset_and_hazards.md R198, R201: the host routine run(word) ends in the same state
however many times the host polls STATUS before the engine completes. -/
def Obligations.ResultDoesNotDependOnPolling : Prop :=
  ∀ (s : State) (w : Word) (i : Instr) (polls : Nat),
    s.err = false → s.busy = false → verdict s.curve w = .legal i →
    s.inputs = hostRun w polls →
    (∃ t, runSteps (polls + 3) s = .next t ∧ t.inputs = [] ∧ t.busy = false) ∧
    runSteps (polls + 3) s = runSteps 3 { s with inputs := hostRun w 0 }

/-! Field arithmetic (42_field.md). -/

/-- 42_field.md R117, R129: for reduced operands xtime multiplies by t, and fmul(x, y) is reduced and is the
product x·y modulo f. -/
def Obligations.FmulIsTheFieldProduct : Prop :=
  ∀ (c : Curve) (x y : Vec), x.reduced c → y.reduced c →
    (xtime c x).reduced c ∧ congF c (toPoly (xtime c x)) (Polynomial.X * toPoly x) ∧
    (fmul c x y).reduced c ∧ congF c (toPoly (fmul c x y)) (toPoly x * toPoly y)

/-- 42_field.md R129: fmul is commutative and associative on reduced operands; it is additive in its right
operand; ONE is its right unit and ZERO annihilates; bits of y at m and above are not read. -/
def Obligations.FmulLaws : Prop :=
  ∀ (c : Curve) (x y w : Vec),
    (x.reduced c → y.reduced c → fmul c x y = fmul c y x) ∧
    (x.reduced c → y.reduced c → w.reduced c → fmul c (fmul c x y) w = fmul c x (fmul c y w)) ∧
    fmul c x (y ^^^ w) = fmul c x y ^^^ fmul c x w ∧
    fmul c x Vec.ONE = x ∧ fmul c x Vec.ZERO = Vec.ZERO ∧
    fmul c x y = fmul c x (y &&& vmask c.m)

/-- 42_field.md R125, R130: a value finv returns is an inverse modulo f; for a reduced operand it is reduced, and
fmul of the two is ONE. -/
def Obligations.FinvIsTheInverse : Prop :=
  ∀ (c : Curve) (x z : Vec), x.fits c → finv c x = some z →
    congF c (toPoly x * toPoly z) 1 ∧
    (x.reduced c → z.reduced c ∧ fmul c x z = Vec.ONE)

/-- 42_field.md R130, 60_exceptions.md R182: finv succeeds exactly on the operands that have an inverse modulo f,
so it raises NOT_INVERTIBLE on every multiple of f, ZERO and POLY among them; and more loop turns than the
model's bound change nothing (log 6). Every nonzero reduced operand has an inverse (R130; f is POLY of log 7),
so that pdbl, padd and pmul return on every point with reduced coordinates, PDBL, PADD and PMUL complete on
them (43_point.md R144), and KEYGEN completes in every state (44_protocol.md R163). -/
def Obligations.FinvSucceedsExactlyOnUnits : Prop :=
  ∀ (c : Curve),
    (∀ x : Vec, x.fits c →
      ((finv c x).isSome = true ↔ ∃ p, congF c (toPoly x * p) 1) ∧
      (toPoly c.poly ∣ toPoly x → finv c x = none) ∧
      ∀ k, finvLoop c (deg x + deg c.poly + 1 + k) x c.poly Vec.ZERO Vec.ONE = finv c x) ∧
    (∀ x : Vec, x.reduced c → x ≠ Vec.ZERO → ∃ z, finv c x = some z) ∧
    (∀ p q : Point, p.reduced c → q.reduced c →
      (∃ r, pdbl c p = some r) ∧ (∃ r, padd c p q = some r) ∧ ∀ k, ∃ r, pmul c p k = some r) ∧
    (∀ (s : State) (pd ps : Pair) (rk : Reg), s.curve = c →
      (s.opdPoint pd).reduced c → (s.opdPoint ps).reduced c →
      (∃ t, exec (.pdbl pd) s = .next t ∧ t.done = true) ∧
      (∃ t, exec (.padd pd ps) s = .next t ∧ t.done = true) ∧
      (∃ t, exec (.pmul pd rk) s = .next t ∧ t.done = true)) ∧
    (∀ (s : State) (pd : Pair) (rpriv : Reg), s.curve = c →
      ∃ t, exec (.keygen pd rpriv) s = .next t ∧ t.done = true)

/-- 42_field.md R131: fred(v) is reduced and congruent to v; it is idempotent and additive; v + v is ZERO. -/
def Obligations.FredLaws : Prop :=
  ∀ (c : Curve) (v u : Vec), v.fits c → u.fits c →
    (fred c v).reduced c ∧ congF c (toPoly (fred c v)) (toPoly v) ∧
    fred c (fred c v) = fred c v ∧ fred c (v ^^^ u) = fred c v ^^^ fred c u ∧
    v ^^^ v = Vec.ZERO

/-- 41_bitvector.md R100, 42_field.md R122, 43_point.md R135, 00_scope.md R17: under either timing policy the
equality test, the zero test, fmul and pmul give the values the commands use. -/
def Obligations.TimingPoliciesAgree : Prop :=
  ∀ (p : TimingPolicy) (c : Curve) (a b : Vec) (q : Point),
    (a.fits c → b.fits c → equalBy p c a b = (a == b)) ∧
    (a.fits c → isZeroBy p c a = (a == Vec.ZERO)) ∧
    fmulBy p c a b = fmul c a b ∧ pmulBy p c q a = pmul c q a

/-! Points (43_point.md). -/

/-- 43_point.md R140, R141, R143: P + O = P, O + P = P, P + P = 2P, P + (−P) = O, 1·P = P, 0·P = O, and 2P = O
for a point with x = ZERO. -/
def Obligations.PointIdentityLaws : Prop :=
  ∀ (c : Curve) (p : Point),
    padd c p Point.O = some p ∧ padd c Point.O p = some p ∧ padd c p p = pdbl c p ∧
    padd c p (negPoint p) = some Point.O ∧
    pmul c p Vec.ONE = some p ∧ pmul c p Vec.ZERO = some Point.O ∧
    (p.x = Vec.ZERO → pdbl c p = some Point.O)

/-- 43_point.md R143: doubling and adding points with reduced coordinates on the curve gives points with reduced
coordinates on the curve. -/
def Obligations.PointArithmeticStaysOnTheCurve : Prop :=
  ∀ (c : Curve) (p q r : Point), p.reduced c → q.reduced c →
    onCurve c p = true → onCurve c q = true →
    (pdbl c p = some r → r.reduced c ∧ onCurve c r = true) ∧
    (padd c p q = some r → r.reduced c ∧ onCurve c r = true)

/-- 43_point.md R143: padd(P, Q) = padd(Q, P) for points with reduced coordinates. -/
def Obligations.PaddIsCommutative : Prop :=
  ∀ (c : Curve) (p q : Point), p.reduced c → q.reduced c → padd c p q = padd c q p

/-- 43_point.md R143, 44_protocol.md R170: the base point of every build is reduced and on its curve, and so is
every multiple of it that pmul returns. The curve constants are PRESUMED (log 7). -/
def Obligations.MultiplesOfTheBasePointAreOnTheCurve : Prop :=
  ∀ (c : Curve),
    c.basePoint.reduced c ∧ onCurve c c.basePoint = true ∧
    ∀ (k : Vec) (q : Point), pmul c c.basePoint k = some q → q.reduced c ∧ onCurve c q = true

/-! What each command does, and that it completes. The operands are those of the snapshot (00_scope.md R27). -/

/-- 41_bitvector.md section 2: each command of the BitVector family and NOP completes, in every state and on
every operand, with the result its pseudocode gives and nothing else changed. -/
def Obligations.BitVectorCommandsComplete : Prop :=
  ∀ (s : State) (rd rs1 rs2 : Reg) (imm : Imm10) (n : ConstName),
    (∃ t, exec .nop s = .next t ∧ Completed s t s.reg s.res .ok) ∧
    (∃ t, exec (.getbit rs1 imm) s = .next t ∧
      Completed s t s.reg (if (s.opd rs1).getLsbD imm.toNat then 1 else 0) .ok) ∧
    (∃ t, exec (.clrbit rd imm) s = .next t ∧
      Completed s t (s.with1 rd (s.opd rd &&& ~~~(Vec.ONE <<< imm.toNat))) s.res .ok) ∧
    (∃ t, exec (.copy rd rs1) s = .next t ∧ Completed s t (s.with1 rd (s.opd rs1)) s.res .ok) ∧
    (∃ t, exec (.swap rd rs1) s = .next t ∧
      Completed s t (Function.update (s.with1 rd (s.opd rs1)) rs1 (s.opd rd)) s.res .ok) ∧
    (∃ t, exec (.equal rs1 rs2) s = .next t ∧
      Completed s t s.reg (if s.opd rs1 = s.opd rs2 then 1 else 0) .ok) ∧
    (∃ t, exec (.iszero rs1) s = .next t ∧
      Completed s t s.reg (if s.opd rs1 = Vec.ZERO then 1 else 0) .ok) ∧
    (∃ t, exec (.setzero rd) s = .next t ∧ Completed s t (s.with1 rd Vec.ZERO) s.res .ok) ∧
    (∃ t, exec (.degree rs1) s = .next t ∧
      Completed s t s.reg (BitVec.ofNat 32 (deg (s.opd rs1))) .ok) ∧
    (∃ t, exec (.lshift rd rs1 imm) s = .next t ∧
      Completed s t (s.with1 rd (lshift s.curve (s.opd rs1) imm.toNat)) s.res .ok) ∧
    (∃ t, exec (.ldc rd n) s = .next t ∧
      Completed s t (s.with1 rd (s.curve.const n)) s.res .ok)

/-- 42_field.md sections 2 to 5: each command of the Field family completes with the result its pseudocode
gives and nothing else changed: FMUL for rd other than rs2 (the other form is ALIAS, see
ForbiddenOverlapsAreAlias), FINV for an operand that finv inverts. -/
def Obligations.FieldCommandsComplete : Prop :=
  ∀ (s : State) (rd rs1 rs2 : Reg),
    (∃ t, exec (.fsetone rd) s = .next t ∧ Completed s t (s.with1 rd Vec.ONE) s.res .ok) ∧
    (∃ t, exec (.fisone rs1) s = .next t ∧
      Completed s t s.reg (if s.opd rs1 = Vec.ONE then 1 else 0) .ok) ∧
    (∃ t, exec (.fadd rd rs1 rs2) s = .next t ∧
      Completed s t (s.with1 rd (s.opd rs1 ^^^ s.opd rs2)) s.res .ok) ∧
    (∃ t, exec (.finc rd) s = .next t ∧
      Completed s t (s.with1 rd (s.opd rd ^^^ Vec.ONE)) s.res .ok) ∧
    (rd ≠ rs2 → ∃ t, exec (.fmul rd rs1 rs2) s = .next t ∧
      Completed s t (s.with1 rd (fmul s.curve (s.opd rs1) (s.opd rs2))) s.res .ok) ∧
    (∀ z, finv s.curve (s.opd rs1) = some z →
      ∃ t, exec (.finv rd rs1) s = .next t ∧ Completed s t (s.with1 rd z) s.res .ok) ∧
    (∃ t, exec (.fred rd rs1) s = .next t ∧
      Completed s t (s.with1 rd (fred s.curve (s.opd rs1))) s.res .ok)

/-- 43_point.md section 3: each command of the CurvePoint family completes with the result its pseudocode gives
and nothing else changed: PDBL, PADD and PMUL for operands on which pdbl, padd and pmul return a point. -/
def Obligations.PointCommandsComplete : Prop :=
  ∀ (s : State) (pd ps : Pair) (rk : Reg),
    (∃ t, exec (.piszero ps) s = .next t ∧
      Completed s t s.reg
        (if s.opd ps.rx = Vec.ZERO ∧ s.opd ps.ry = Vec.ZERO then 1 else 0) .ok) ∧
    (∃ t, exec (.pcopy pd ps) s = .next t ∧
      Completed s t (s.withPoint pd ⟨s.opd ps.rx, s.opd ps.ry⟩) s.res .ok) ∧
    (∀ q, pdbl s.curve ⟨s.opd pd.rx, s.opd pd.ry⟩ = some q →
      ∃ t, exec (.pdbl pd) s = .next t ∧ Completed s t (s.withPoint pd q) s.res .ok) ∧
    (∀ q, padd s.curve ⟨s.opd pd.rx, s.opd pd.ry⟩ ⟨s.opd ps.rx, s.opd ps.ry⟩ = some q →
      ∃ t, exec (.padd pd ps) s = .next t ∧ Completed s t (s.withPoint pd q) s.res .ok) ∧
    (∀ q, pmul s.curve ⟨s.opd pd.rx, s.opd pd.ry⟩ (s.opd rk) = some q →
      ∃ t, exec (.pmul pd rk) s = .next t ∧ Completed s t (s.withPoint pd q) s.res .ok) ∧
    (∃ t, exec (.poncurve ps) s = .next t ∧
      Completed s t s.reg
        (if onCurve s.curve ⟨s.opd ps.rx, s.opd ps.ry⟩ = true then 1 else 0) .ok)

/-- 60_exceptions.md R174, R182: a command whose function meets a non-invertible value raises NOT_INVERTIBLE, with
FINFO the command word and nothing committed. FINV, PDBL, PADD and PMUL; ECDH in the multiple or in a cofactor
doubling; SIGN on a nonce that finv rejects, unless r = ZERO has ended it before that finv (44_protocol.md
R167); VERIFY on s, on the multiple of the public key, or in the sum. -/
def Obligations.NotInvertibleFaultsCommitNothing : Prop :=
  ∀ (s : State) (rd rs1 rs2 rs3 : Reg) (pd ps : Pair),
    (finv s.curve (s.opd rs1) = none →
      ∃ t, exec (.finv rd rs1) s = .next t ∧ Faulted s t .notInvertible s.cmdWord) ∧
    (pdbl s.curve ⟨s.opd pd.rx, s.opd pd.ry⟩ = none →
      ∃ t, exec (.pdbl pd) s = .next t ∧ Faulted s t .notInvertible s.cmdWord) ∧
    (padd s.curve ⟨s.opd pd.rx, s.opd pd.ry⟩ ⟨s.opd ps.rx, s.opd ps.ry⟩ = none →
      ∃ t, exec (.padd pd ps) s = .next t ∧ Faulted s t .notInvertible s.cmdWord) ∧
    (pmul s.curve ⟨s.opd pd.rx, s.opd pd.ry⟩ (s.opd rs1) = none →
      ∃ t, exec (.pmul pd rs1) s = .next t ∧ Faulted s t .notInvertible s.cmdWord) ∧
    (∀ q : Point, q = ⟨s.opd ps.rx, s.opd ps.ry⟩ → q ≠ Point.O → onCurve s.curve q = true →
      (pmul s.curve q (s.opd rs1) = none →
        ∃ t, exec (.ecdh pd rs1 ps) s = .next t ∧ Faulted s t .notInvertible s.cmdWord) ∧
      (∀ p, s.ctrl.cofv = true → pmul s.curve q (s.opd rs1) = some p → pdbl s.curve p = none →
        ∃ t, exec (.ecdh pd rs1 ps) s = .next t ∧ Faulted s t .notInvertible s.cmdWord) ∧
      (∀ p d, s.ctrl.cofv = true → s.curve.cofactor = 4 →
        pmul s.curve q (s.opd rs1) = some p → pdbl s.curve p = some d → pdbl s.curve d = none →
        ∃ t, exec (.ecdh pd rs1 ps) s = .next t ∧ Faulted s t .notInvertible s.cmdWord)) ∧
    (s.curve.m / 2 ≤ deg (s.opd rs1) → s.opd rs3 ≠ Vec.ZERO → finv s.curve (s.opd rs3) = none →
      ∃ t, exec (.sign pd rs1 rs2 rs3) s = .next t ∧
        (Faulted s t .notInvertible s.cmdWord ∨
          ∃ q, pmul s.curve s.curve.basePoint (s.opd rs3) = some q ∧ q.x = Vec.ZERO ∧
            Completed s t (s.withPoint pd Point.O) 0 .degenerateSignature)) ∧
    (s.opd pd.rx ≠ Vec.ZERO → s.opd pd.ry ≠ Vec.ZERO →
      (finv s.curve (s.opd pd.ry) = none →
        ∃ t, exec (.verify ps rd pd) s = .next t ∧ Faulted s t .notInvertible s.cmdWord) ∧
      (∀ w, finv s.curve (s.opd pd.ry) = some w →
        pmul s.curve ⟨s.opd ps.rx, s.opd ps.ry⟩ (fmul s.curve (s.opd pd.rx) w) = none →
        ∃ t, exec (.verify ps rd pd) s = .next t ∧ Faulted s t .notInvertible s.cmdWord) ∧
      (∀ w a b, finv s.curve (s.opd pd.ry) = some w →
        pmul s.curve s.curve.basePoint (fmul s.curve (maskN s.curve (s.opd rd)) w) = some a →
        pmul s.curve ⟨s.opd ps.rx, s.opd ps.ry⟩ (fmul s.curve (s.opd pd.rx) w) = some b →
        padd s.curve a b = none →
        ∃ t, exec (.verify ps rd pd) s = .next t ∧ Faulted s t .notInvertible s.cmdWord))

/-- R161 and R162: a scalar is weak when its degree is below floor(m/2), the thresholds being those of R161's
table; the order mask clears every bit at deg(N) or above and no other. -/
def Obligations.WeakKeyAndOrderMask : Prop :=
  (∀ (c : Curve) (p : Vec), weak c p = true ↔ deg p < c.m / 2) ∧
  (∀ c : Curve,
    (c.m = 163 → c.m / 2 = 81) ∧ (c.m = 233 → c.m / 2 = 116) ∧ (c.m = 283 → c.m / 2 = 141) ∧
    (c.m = 409 → c.m / 2 = 204) ∧ (c.m = 571 → c.m / 2 = 285)) ∧
  (∀ (c : Curve) (v : Vec) (i : Nat),
    (maskN c v).getLsbD i = (decide (i < deg c.order) && v.getLsbD i))

/-- 44_protocol.md R163: KEYGEN, its private-key register outside the pair (the other form is ALIAS). A weak
scalar completes with WEAK_PRIVATE_KEY and nothing written; else the masked scalar and its multiple of G are
written with RES = 1. -/
def Obligations.KeygenCompletes : Prop :=
  ∀ (s : State) (pd : Pair) (rpriv : Reg), rpriv ≠ pd.rx → rpriv ≠ pd.ry →
    (deg (s.opd rpriv) < s.curve.m / 2 →
      ∃ t, exec (.keygen pd rpriv) s = .next t ∧ Completed s t s.reg 0 .weakPrivateKey) ∧
    (∀ q, s.curve.m / 2 ≤ deg (s.opd rpriv) →
      pmul s.curve s.curve.basePoint (maskN s.curve (s.opd rpriv)) = some q →
      ∃ t, exec (.keygen pd rpriv) s = .next t ∧
        Completed s t
          (Function.update (s.withPoint pd q) rpriv (maskN s.curve (s.opd rpriv))) 1 .ok)

/-- 44_protocol.md R165, R166: ECDH. The identity or a point off the curve completes with
INVALID_PEER_PUBLIC_KEY and nothing written; else the multiple of the peer point is written with RES = 1,
after one doubling for h = 2 and two for h = 4 where CTRL.COFV is 1. -/
def Obligations.EcdhCompletes : Prop :=
  ∀ (s : State) (pd ppeer : Pair) (rpriv : Reg) (q p d e : Point),
    q = ⟨s.opd ppeer.rx, s.opd ppeer.ry⟩ →
    ((q = Point.O ∨ onCurve s.curve q = false) →
      ∃ t, exec (.ecdh pd rpriv ppeer) s = .next t ∧
        Completed s t s.reg 0 .invalidPeerPublicKey) ∧
    (q ≠ Point.O → onCurve s.curve q = true → pmul s.curve q (s.opd rpriv) = some p →
      (s.ctrl.cofv = false →
        ∃ t, exec (.ecdh pd rpriv ppeer) s = .next t ∧
          Completed s t (s.withPoint pd p) 1 .ok) ∧
      (s.ctrl.cofv = true → s.curve.cofactor = 2 → pdbl s.curve p = some d →
        ∃ t, exec (.ecdh pd rpriv ppeer) s = .next t ∧
          Completed s t (s.withPoint pd d) 1 .ok) ∧
      (s.ctrl.cofv = true → s.curve.cofactor = 4 → pdbl s.curve p = some d →
        pdbl s.curve d = some e →
        ∃ t, exec (.ecdh pd rpriv ppeer) s = .next t ∧
          Completed s t (s.withPoint pd e) 1 .ok))

/-- 44_protocol.md R167: SIGN, each of its outcomes: a weak key, then a zero nonce, complete with nothing
written; r = 0 writes (0, 0) and s = 0 writes (r, 0) as DEGENERATE_SIGNATURE; else (r, s) is written with
RES = 1. -/
def Obligations.SignCompletes : Prop :=
  ∀ (s : State) (pd : Pair) (rpriv rdig rnonce : Reg) (q : Point) (ki x : Vec),
    (deg (s.opd rpriv) < s.curve.m / 2 →
      ∃ t, exec (.sign pd rpriv rdig rnonce) s = .next t ∧
        Completed s t s.reg 0 .weakPrivateKey) ∧
    (s.curve.m / 2 ≤ deg (s.opd rpriv) → s.opd rnonce = Vec.ZERO →
      ∃ t, exec (.sign pd rpriv rdig rnonce) s = .next t ∧
        Completed s t s.reg 0 .zeroNonce) ∧
    (s.curve.m / 2 ≤ deg (s.opd rpriv) → s.opd rnonce ≠ Vec.ZERO →
      pmul s.curve s.curve.basePoint (s.opd rnonce) = some q →
      (q.x = Vec.ZERO ∨ finv s.curve (s.opd rnonce) = some ki) →
      x = fmul s.curve ki (maskN s.curve (s.opd rdig) ^^^ fmul s.curve q.x (s.opd rpriv)) →
      ∃ t, exec (.sign pd rpriv rdig rnonce) s = .next t ∧
        Completed s t (s.withPoint pd (if q.x = Vec.ZERO then Point.O else ⟨q.x, x⟩))
          (if q.x = Vec.ZERO ∨ x = Vec.ZERO then 0 else 1)
          (if q.x = Vec.ZERO ∨ x = Vec.ZERO then .degenerateSignature else .ok))

/-- 44_protocol.md R168, R169: VERIFY, each of its outcomes; no register is written. A zero component completes
with INVALID_SIGNATURE_ENCODING; else u1·G + u2·Q is formed and its x compared with r. -/
def Obligations.VerifyCompletes : Prop :=
  ∀ (s : State) (ppub psig : Pair) (rdig : Reg) (w : Vec) (a b x : Point),
    ((s.opd psig.rx = Vec.ZERO ∨ s.opd psig.ry = Vec.ZERO) →
      ∃ t, exec (.verify ppub rdig psig) s = .next t ∧
        Completed s t s.reg 0 .invalidSignatureEncoding) ∧
    (s.opd psig.rx ≠ Vec.ZERO → s.opd psig.ry ≠ Vec.ZERO →
      finv s.curve (s.opd psig.ry) = some w →
      pmul s.curve s.curve.basePoint (fmul s.curve (maskN s.curve (s.opd rdig)) w) = some a →
      pmul s.curve ⟨s.opd ppub.rx, s.opd ppub.ry⟩ (fmul s.curve (s.opd psig.rx) w) = some b →
      padd s.curve a b = some x →
      (x.x = s.opd psig.rx →
        ∃ t, exec (.verify ppub rdig psig) s = .next t ∧ Completed s t s.reg 1 .ok) ∧
      (x.x ≠ s.opd psig.rx →
        ∃ t, exec (.verify ppub rdig psig) s = .next t ∧
          Completed s t s.reg 0 .signatureMismatch))
end

