-- ==== Sys2Proof/Laws/Encoding.lean ====
section
/-! SUPPORT. The fields of an encoded word (30_encoding.md R81, R82): what each extraction reads from each
format, once. -/

namespace Sys2Proof

/-- Two 4-bit vectors with the same four bits are equal. -/
theorem bv4_ext {a b : BitVec 4} (h : ∀ i, i = 0 ∨ i = 1 ∨ i = 2 ∨ i = 3 → a.getLsbD i = b.getLsbD i) :
    a = b := by
  apply BitVec.eq_of_getLsbD_eq
  intro i hi
  exact h i (by omega)

/-- The bits of a format R word, by place (30_encoding.md R81). -/
theorem getLsbD_wordR (op : BitVec 8) (a b c d : BitVec 4) (i : Nat) (hi : i < 32) :
    (wordR op a b c d).getLsbD i =
      (op.getLsbD i || (!decide (i < 8) && a.getLsbD (i - 8)) || (!decide (i < 12) && b.getLsbD (i - 12))
        || (!decide (i < 16) && c.getLsbD (i - 16)) || (!decide (i < 20) && d.getLsbD (i - 20))) := by
  simp [wordR, hi]

/-- The bits of a format I word, by place (30_encoding.md R82). -/
theorem getLsbD_wordI (op : BitVec 8) (a b : BitVec 4) (m : Imm10) (i : Nat) (hi : i < 32) :
    (wordI op a b m).getLsbD i =
      (op.getLsbD i || (!decide (i < 8) && a.getLsbD (i - 8)) || (!decide (i < 12) && b.getLsbD (i - 12))
        || (!decide (i < 16) && m.getLsbD (i - 16))) := by
  simp [wordI, hi]

@[simp] theorem opField_wordR (op : BitVec 8) (a b c d : BitVec 4) : opField (wordR op a b c d) = op := by
  ext i hi
  rw [opField, BitVec.getElem_extractLsb', getLsbD_wordR _ _ _ _ _ _ (by omega)]
  simp [hi, show i < 12 by omega, show i < 16 by omega, show i < 20 by omega]

@[simp] theorem opField_wordI (op : BitVec 8) (a b : BitVec 4) (m : Imm10) :
    opField (wordI op a b m) = op := by
  ext i hi
  rw [opField, BitVec.getElem_extractLsb', getLsbD_wordI _ _ _ _ _ (by omega)]
  simp [hi, show i < 12 by omega, show i < 16 by omega]

@[simp] theorem rdField_wordR (op : BitVec 8) (a b c d : BitVec 4) : rdField (wordR op a b c d) = a := by
  apply bv4_ext
  intro i hi
  rw [rdField, BitVec.getLsbD_extractLsb', getLsbD_wordR _ _ _ _ _ _ (by omega)]
  rcases hi with rfl | rfl | rfl | rfl <;> simp

@[simp] theorem rs1Field_wordR (op : BitVec 8) (a b c d : BitVec 4) : rs1Field (wordR op a b c d) = b := by
  apply bv4_ext
  intro i hi
  rw [rs1Field, BitVec.getLsbD_extractLsb', getLsbD_wordR _ _ _ _ _ _ (by omega)]
  rcases hi with rfl | rfl | rfl | rfl <;> simp

@[simp] theorem rs2Field_wordR (op : BitVec 8) (a b c d : BitVec 4) : rs2Field (wordR op a b c d) = c := by
  apply bv4_ext
  intro i hi
  rw [rs2Field, BitVec.getLsbD_extractLsb', getLsbD_wordR _ _ _ _ _ _ (by omega)]
  rcases hi with rfl | rfl | rfl | rfl <;> simp

@[simp] theorem rs3Field_wordR (op : BitVec 8) (a b c d : BitVec 4) : rs3Field (wordR op a b c d) = d := by
  apply bv4_ext
  intro i hi
  rw [rs3Field, BitVec.getLsbD_extractLsb', getLsbD_wordR _ _ _ _ _ _ (by omega)]
  rcases hi with rfl | rfl | rfl | rfl <;> simp

@[simp] theorem rdField_wordI (op : BitVec 8) (a b : BitVec 4) (m : Imm10) :
    rdField (wordI op a b m) = a := by
  apply bv4_ext
  intro i hi
  rw [rdField, BitVec.getLsbD_extractLsb', getLsbD_wordI _ _ _ _ _ (by omega)]
  rcases hi with rfl | rfl | rfl | rfl <;> simp

@[simp] theorem rs1Field_wordI (op : BitVec 8) (a b : BitVec 4) (m : Imm10) :
    rs1Field (wordI op a b m) = b := by
  apply bv4_ext
  intro i hi
  rw [rs1Field, BitVec.getLsbD_extractLsb', getLsbD_wordI _ _ _ _ _ (by omega)]
  rcases hi with rfl | rfl | rfl | rfl <;> simp

@[simp] theorem immField_wordI (op : BitVec 8) (a b : BitVec 4) (m : Imm10) :
    immField (wordI op a b m) = m := by
  apply BitVec.eq_of_getLsbD_eq
  intro i hi
  rw [immField, BitVec.getLsbD_extractLsb', getLsbD_wordI _ _ _ _ _ (by omega)]
  interval_cases i <;> simp

@[simp] theorem highR_wordR (op : BitVec 8) (a b c d : BitVec 4) : highR (wordR op a b c d) = 0 := by
  apply BitVec.eq_of_getLsbD_eq
  intro i hi
  rw [highR, BitVec.getLsbD_extractLsb', getLsbD_wordR _ _ _ _ _ _ (by omega)]
  interval_cases i <;> simp

@[simp] theorem highI_wordI (op : BitVec 8) (a b : BitVec 4) (m : Imm10) : highI (wordI op a b m) = 0 := by
  apply BitVec.eq_of_getLsbD_eq
  intro i hi
  rw [highI, BitVec.getLsbD_extractLsb', getLsbD_wordI _ _ _ _ _ (by omega)]
  interval_cases i <;> simp

@[simp] theorem regOf_regBits (r : Reg) : regOf (regBits r) = r := rfl

@[simp] theorem pairOf_pairBits (p : Pair) : pairOf (pairBits p) = some p := by
  revert p
  decide

@[simp] theorem ofIndex_index (n : ConstName) :
    ConstName.ofIndex (BitVec.ofNat 10 n.index).toNat = some n := by
  cases n <;> rfl

end Sys2Proof
end

