-- ==== Sys2Proof/Laws/State.lean ====
section
/-! SUPPORT. One lemma per field per update of the state, each true by rfl, so that no later proof unfolds a
record update; and what a register write leaves in each register. -/

namespace Sys2Proof.Machine

/-! A register write. -/

@[simp] theorem State.setReg_res (s : State) (r : Reg) (v : Vec) : (s.setReg r v).res = s.res := rfl
@[simp] theorem State.setReg_busy (s : State) (r : Reg) (v : Vec) : (s.setReg r v).busy = s.busy := rfl
@[simp] theorem State.setReg_done (s : State) (r : Reg) (v : Vec) : (s.setReg r v).done = s.done := rfl
@[simp] theorem State.setReg_err (s : State) (r : Reg) (v : Vec) : (s.setReg r v).err = s.err := rfl
@[simp] theorem State.setReg_ecode (s : State) (r : Reg) (v : Vec) : (s.setReg r v).ecode = s.ecode := rfl
@[simp] theorem State.setReg_pstat (s : State) (r : Reg) (v : Vec) : (s.setReg r v).pstat = s.pstat := rfl
@[simp] theorem State.setReg_ctrl (s : State) (r : Reg) (v : Vec) : (s.setReg r v).ctrl = s.ctrl := rfl
@[simp] theorem State.setReg_cmd (s : State) (r : Reg) (v : Vec) : (s.setReg r v).cmd = s.cmd := rfl
@[simp] theorem State.setReg_finfo (s : State) (r : Reg) (v : Vec) : (s.setReg r v).finfo = s.finfo := rfl
@[simp] theorem State.setReg_pending (s : State) (r : Reg) (v : Vec) : (s.setReg r v).pending = s.pending := rfl
@[simp] theorem State.setReg_curve (s : State) (r : Reg) (v : Vec) : (s.setReg r v).curve = s.curve := rfl
@[simp] theorem State.setReg_inputs (s : State) (r : Reg) (v : Vec) : (s.setReg r v).inputs = s.inputs := rfl
@[simp] theorem State.setReg_rdata (s : State) (r : Reg) (v : Vec) : (s.setReg r v).rdata = s.rdata := rfl

@[simp] theorem State.reg_setReg_self (s : State) (r : Reg) (v : Vec) : (s.setReg r v).reg r = v := by
  simp [State.reg, State.setReg]

@[simp] theorem State.reg_setReg_ne (s : State) {r q : Reg} (v : Vec) (h : q ≠ r) :
    (s.setReg r v).reg q = s.reg q := by
  have : (r : Nat) ≠ q := fun e => h (Fin.ext e.symm)
  simp [State.reg, State.setReg, Vector.getElem_set_ne, this]

theorem State.reg_setReg (s : State) (r q : Reg) (v : Vec) :
    (s.setReg r v).reg q = if q = r then v else s.reg q := by
  split
  · next h => subst h; simp
  · next h => simp [h]

/-! A list of register writes. -/

@[simp] theorem State.setRegs_nil (s : State) : s.setRegs [] = s := rfl
@[simp] theorem State.setRegs_cons (s : State) (r : Reg) (v : Vec) (ws : List (Reg × Vec)) :
    s.setRegs ((r, v) :: ws) = (s.setReg r v).setRegs ws := rfl
@[simp] theorem State.setRegs_res (s : State) (ws : List (Reg × Vec)) : (s.setRegs ws).res = s.res := by
  induction ws generalizing s with
  | nil => rfl
  | cons w ws ih => exact ih _
@[simp] theorem State.setRegs_busy (s : State) (ws : List (Reg × Vec)) : (s.setRegs ws).busy = s.busy := by
  induction ws generalizing s with
  | nil => rfl
  | cons w ws ih => exact ih _
@[simp] theorem State.setRegs_done (s : State) (ws : List (Reg × Vec)) : (s.setRegs ws).done = s.done := by
  induction ws generalizing s with
  | nil => rfl
  | cons w ws ih => exact ih _
@[simp] theorem State.setRegs_err (s : State) (ws : List (Reg × Vec)) : (s.setRegs ws).err = s.err := by
  induction ws generalizing s with
  | nil => rfl
  | cons w ws ih => exact ih _
@[simp] theorem State.setRegs_ecode (s : State) (ws : List (Reg × Vec)) : (s.setRegs ws).ecode = s.ecode := by
  induction ws generalizing s with
  | nil => rfl
  | cons w ws ih => exact ih _
@[simp] theorem State.setRegs_pstat (s : State) (ws : List (Reg × Vec)) : (s.setRegs ws).pstat = s.pstat := by
  induction ws generalizing s with
  | nil => rfl
  | cons w ws ih => exact ih _
@[simp] theorem State.setRegs_ctrl (s : State) (ws : List (Reg × Vec)) : (s.setRegs ws).ctrl = s.ctrl := by
  induction ws generalizing s with
  | nil => rfl
  | cons w ws ih => exact ih _
@[simp] theorem State.setRegs_cmd (s : State) (ws : List (Reg × Vec)) : (s.setRegs ws).cmd = s.cmd := by
  induction ws generalizing s with
  | nil => rfl
  | cons w ws ih => exact ih _
@[simp] theorem State.setRegs_finfo (s : State) (ws : List (Reg × Vec)) : (s.setRegs ws).finfo = s.finfo := by
  induction ws generalizing s with
  | nil => rfl
  | cons w ws ih => exact ih _
@[simp] theorem State.setRegs_pending (s : State) (ws : List (Reg × Vec)) : (s.setRegs ws).pending = s.pending := by
  induction ws generalizing s with
  | nil => rfl
  | cons w ws ih => exact ih _
@[simp] theorem State.setRegs_curve (s : State) (ws : List (Reg × Vec)) : (s.setRegs ws).curve = s.curve := by
  induction ws generalizing s with
  | nil => rfl
  | cons w ws ih => exact ih _
@[simp] theorem State.setRegs_inputs (s : State) (ws : List (Reg × Vec)) : (s.setRegs ws).inputs = s.inputs := by
  induction ws generalizing s with
  | nil => rfl
  | cons w ws ih => exact ih _
@[simp] theorem State.setRegs_rdata (s : State) (ws : List (Reg × Vec)) : (s.setRegs ws).rdata = s.rdata := by
  induction ws generalizing s with
  | nil => rfl
  | cons w ws ih => exact ih _

/-- A register no write of the list names keeps its value. -/
theorem State.reg_setRegs_of_notMem (s : State) (ws : List (Reg × Vec)) (r : Reg)
    (h : ∀ w ∈ ws, w.1 ≠ r) : (s.setRegs ws).reg r = s.reg r := by
  induction ws generalizing s with
  | nil => rfl
  | cons w ws ih =>
    have hw : r ≠ w.1 := fun e => h w (List.mem_cons_self ..) e.symm
    simpa [State.setRegs, hw] using ih (s.setReg w.1 w.2) fun x hx => h x (List.mem_cons_of_mem _ hx)

/-! The fault action (60_exceptions.md R183). -/

@[simp] theorem State.raiseFault_R (s : State) (e : ECode) (i : Word) : (s.raiseFault e i).R = s.R := rfl
@[simp] theorem State.raiseFault_res (s : State) (e : ECode) (i : Word) : (s.raiseFault e i).res = s.res := rfl
@[simp] theorem State.raiseFault_busy (s : State) (e : ECode) (i : Word) : (s.raiseFault e i).busy = false := rfl
@[simp] theorem State.raiseFault_done (s : State) (e : ECode) (i : Word) : (s.raiseFault e i).done = false := rfl
@[simp] theorem State.raiseFault_err (s : State) (e : ECode) (i : Word) : (s.raiseFault e i).err = true := rfl
@[simp] theorem State.raiseFault_ecode (s : State) (e : ECode) (i : Word) : (s.raiseFault e i).ecode = e := rfl
@[simp] theorem State.raiseFault_pstat (s : State) (e : ECode) (i : Word) : (s.raiseFault e i).pstat = s.pstat := rfl
@[simp] theorem State.raiseFault_ctrl (s : State) (e : ECode) (i : Word) : (s.raiseFault e i).ctrl = s.ctrl := rfl
@[simp] theorem State.raiseFault_cmd (s : State) (e : ECode) (i : Word) : (s.raiseFault e i).cmd = s.cmd := rfl
@[simp] theorem State.raiseFault_finfo (s : State) (e : ECode) (i : Word) : (s.raiseFault e i).finfo = i := rfl
@[simp] theorem State.raiseFault_pending (s : State) (e : ECode) (i : Word) : (s.raiseFault e i).pending = none := rfl
@[simp] theorem State.raiseFault_curve (s : State) (e : ECode) (i : Word) : (s.raiseFault e i).curve = s.curve := rfl
@[simp] theorem State.raiseFault_inputs (s : State) (e : ECode) (i : Word) : (s.raiseFault e i).inputs = s.inputs := rfl
@[simp] theorem State.raiseFault_rdata (s : State) (e : ECode) (i : Word) : (s.raiseFault e i).rdata = s.rdata := rfl
@[simp] theorem State.raiseFault_reg (s : State) (e : ECode) (i : Word) (r : Reg) :
    (s.raiseFault e i).reg r = s.reg r := rfl

/-! Reset (70_reset_and_hazards.md R194). -/

@[simp] theorem State.resetOf_R (c : Curve) : (State.resetOf c).R = Vector.replicate 16 Vec.ZERO := rfl
@[simp] theorem State.engineReset_R (s : State) : s.engineReset.R = Vector.replicate 16 Vec.ZERO := rfl
@[simp] theorem State.resetOf_res (c : Curve) : (State.resetOf c).res = 0 := rfl
@[simp] theorem State.engineReset_res (s : State) : s.engineReset.res = 0 := rfl
@[simp] theorem State.resetOf_busy (c : Curve) : (State.resetOf c).busy = false := rfl
@[simp] theorem State.engineReset_busy (s : State) : s.engineReset.busy = false := rfl
@[simp] theorem State.resetOf_done (c : Curve) : (State.resetOf c).done = false := rfl
@[simp] theorem State.engineReset_done (s : State) : s.engineReset.done = false := rfl
@[simp] theorem State.resetOf_err (c : Curve) : (State.resetOf c).err = false := rfl
@[simp] theorem State.engineReset_err (s : State) : s.engineReset.err = false := rfl
@[simp] theorem State.resetOf_ecode (c : Curve) : (State.resetOf c).ecode = .none := rfl
@[simp] theorem State.engineReset_ecode (s : State) : s.engineReset.ecode = .none := rfl
@[simp] theorem State.resetOf_pstat (c : Curve) : (State.resetOf c).pstat = .ok := rfl
@[simp] theorem State.engineReset_pstat (s : State) : s.engineReset.pstat = .ok := rfl
@[simp] theorem State.resetOf_ctrl (c : Curve) : (State.resetOf c).ctrl = ⟨false, false, false⟩ := rfl
@[simp] theorem State.engineReset_ctrl (s : State) : s.engineReset.ctrl = ⟨false, false, false⟩ := rfl
@[simp] theorem State.resetOf_cmd (c : Curve) : (State.resetOf c).cmd = 0 := rfl
@[simp] theorem State.engineReset_cmd (s : State) : s.engineReset.cmd = 0 := rfl
@[simp] theorem State.resetOf_finfo (c : Curve) : (State.resetOf c).finfo = 0 := rfl
@[simp] theorem State.engineReset_finfo (s : State) : s.engineReset.finfo = 0 := rfl
@[simp] theorem State.resetOf_pending (c : Curve) : (State.resetOf c).pending = none := rfl
@[simp] theorem State.engineReset_pending (s : State) : s.engineReset.pending = none := rfl
@[simp] theorem State.resetOf_curve (c : Curve) : (State.resetOf c).curve = c := rfl
@[simp] theorem State.engineReset_curve (s : State) : s.engineReset.curve = s.curve := rfl
@[simp] theorem State.resetOf_inputs (c : Curve) : (State.resetOf c).inputs = [] := rfl
@[simp] theorem State.engineReset_inputs (s : State) : s.engineReset.inputs = s.inputs := rfl
@[simp] theorem State.resetOf_rdata (c : Curve) : (State.resetOf c).rdata = none := rfl
@[simp] theorem State.engineReset_rdata (s : State) : s.engineReset.rdata = none := rfl
@[simp] theorem State.resetOf_reg (c : Curve) (r : Reg) : (State.resetOf c).reg r = Vec.ZERO := by
  simp [State.reg]
@[simp] theorem State.engineReset_reg (s : State) (r : Reg) : s.engineReset.reg r = Vec.ZERO := by
  simp [State.reg]

/-! The commit of a command's results (60_exceptions.md R178). -/

@[simp] theorem State.commit_R (s : State) (r : CmdResult) : (s.commit r).R = (s.setRegs r.writes).R := rfl
@[simp] theorem State.commit_res (s : State) (r : CmdResult) : (s.commit r).res = r.res.getD s.res := rfl
@[simp] theorem State.commit_busy (s : State) (r : CmdResult) : (s.commit r).busy = false := rfl
@[simp] theorem State.commit_done (s : State) (r : CmdResult) : (s.commit r).done = true := rfl
@[simp] theorem State.commit_err (s : State) (r : CmdResult) : (s.commit r).err = s.err :=
  State.setRegs_err s r.writes
@[simp] theorem State.commit_ecode (s : State) (r : CmdResult) : (s.commit r).ecode = s.ecode :=
  State.setRegs_ecode s r.writes
@[simp] theorem State.commit_pstat (s : State) (r : CmdResult) : (s.commit r).pstat = r.pstat := rfl
@[simp] theorem State.commit_ctrl (s : State) (r : CmdResult) : (s.commit r).ctrl = s.ctrl :=
  State.setRegs_ctrl s r.writes
@[simp] theorem State.commit_cmd (s : State) (r : CmdResult) : (s.commit r).cmd = s.cmd :=
  State.setRegs_cmd s r.writes
@[simp] theorem State.commit_finfo (s : State) (r : CmdResult) : (s.commit r).finfo = s.finfo :=
  State.setRegs_finfo s r.writes
@[simp] theorem State.commit_pending (s : State) (r : CmdResult) : (s.commit r).pending = none := rfl
@[simp] theorem State.commit_curve (s : State) (r : CmdResult) : (s.commit r).curve = s.curve :=
  State.setRegs_curve s r.writes
@[simp] theorem State.commit_inputs (s : State) (r : CmdResult) : (s.commit r).inputs = s.inputs :=
  State.setRegs_inputs s r.writes
@[simp] theorem State.commit_rdata (s : State) (r : CmdResult) : (s.commit r).rdata = s.rdata :=
  State.setRegs_rdata s r.writes
@[simp] theorem State.commit_reg (s : State) (r : CmdResult) (q : Reg) :
    (s.commit r).reg q = (s.setRegs r.writes).reg q := rfl

/-! What the results of a command hold. -/

@[simp] theorem CmdResult.regs_writes (ws : List (Reg × Vec)) : (CmdResult.regs ws).writes = ws := rfl
@[simp] theorem CmdResult.regs_res (ws : List (Reg × Vec)) : (CmdResult.regs ws).res = none := rfl
@[simp] theorem CmdResult.regs_pstat (ws : List (Reg × Vec)) : (CmdResult.regs ws).pstat = .ok := rfl
@[simp] theorem CmdResult.scalar_writes (v : Word) : (CmdResult.scalar v).writes = [] := rfl
@[simp] theorem CmdResult.scalar_res (v : Word) : (CmdResult.scalar v).res = some v := rfl
@[simp] theorem CmdResult.scalar_pstat (v : Word) : (CmdResult.scalar v).pstat = .ok := rfl

end Sys2Proof.Machine
end

