-- ==== Sys2Proof/Laws/Ops.lean ====
section
/-! SUPPORT. Once for each shared operation: everything it can do. Later proofs cite these instead of
unfolding the operation. -/

namespace Sys2Proof.Machine

/-- The x and y registers of a pair differ (10_state.md R32). -/
theorem Pair.rx_ne_ry (p : Pair) : p.rx ≠ p.ry := by
  intro h
  have := congrArg Fin.val h
  simp [Pair.rx, Pair.ry] at this

/-- A point write leaves the point in its pair and every other register alone (00_scope.md R23). -/
theorem State.reg_setRegs_pairWrites (s : State) (p : Pair) (q : Point) (r : Reg) :
    (s.setRegs (pairWrites p q)).reg r =
      if r = p.ry then q.y else if r = p.rx then q.x else s.reg r := by
  simp [pairWrites, State.reg_setReg]

/-- Everything `finish` can answer: the commit of the results, or the fault NOT_INVERTIBLE. -/
theorem State.finish_cases {s t : State} {o : Option CmdResult} (h : s.finish o = .next t) :
    (∃ r, o = some r ∧ t = s.commit r) ∨
      (o = none ∧ t = s.raiseFault .notInvertible s.cmdWord) := by
  cases o with
  | none => exact .inr ⟨rfl, by simpa [State.finish] using h.symm⟩
  | some r => exact .inl ⟨r, rfl, by simpa [State.finish] using h.symm⟩

@[simp] theorem State.finish_some (s : State) (r : CmdResult) :
    s.finish (some r) = .next (s.commit r) := rfl

@[simp] theorem State.finish_none (s : State) :
    s.finish none = .next (s.raiseFault .notInvertible s.cmdWord) := rfl

/-- Everything acceptance can do: a decode fault, or the command pending (60_exceptions.md R177). -/
theorem State.accept_cases (s : State) (w : Word) :
    (verdict s.curve w = .illegal ∧
        s.accept w = { s with cmd := w, done := false }.raiseFault .illegal w) ∨
      (verdict s.curve w = .overlap ∧
        s.accept w = { s with cmd := w, done := false }.raiseFault .overlap w) ∨
      (∃ i, verdict s.curve w = .legal i ∧
        s.accept w = { s with
          cmd := w, done := false, pending := some ⟨w, s.R⟩, busy := true }) := by
  unfold State.accept
  cases h : verdict s.curve w with
  | illegal => simp [h]
  | overlap => simp [h]
  | legal i => simp [h]

/-- Everything a host read can answer (60_exceptions.md R175). -/
theorem hostRead_cases (width off : Nat) (s : State) :
    (blockSize ≤ off ∧ hostRead width off s = .refused (.outsideBlock off)) ∨
      (off < blockSize ∧ access s.curve width off = none ∧
        hostRead width off s = .next { s.raiseFault .bus (zext32 off) with rdata := some 0 }) ∨
      (∃ l, off < blockSize ∧ access s.curve width off = some l ∧
        hostRead width off s = .next { s with rdata := some (s.readLoc l) }) := by
  unfold hostRead
  split
  · next h => exact .inl ⟨h, rfl⟩
  · next h =>
    have hb : off < blockSize := Nat.lt_of_not_le h
    cases ha : access s.curve width off with
    | none => exact .inr (.inl ⟨hb, rfl, rfl⟩)
    | some l => exact .inr (.inr ⟨l, hb, rfl, rfl⟩)

/-- Everything a host write can answer (60_exceptions.md R175). -/
theorem hostWrite_cases (width off : Nat) (v : Word) (s : State) :
    (blockSize ≤ off ∧ hostWrite width off v s = .refused (.outsideBlock off)) ∨
      (off < blockSize ∧ access s.curve width off = none ∧
        hostWrite width off v s = .next { s.raiseFault .bus (zext32 off) with rdata := none }) ∨
      (∃ l, off < blockSize ∧ access s.curve width off = some l ∧
        hostWrite width off v s = .next { s.writeLoc off v l with rdata := none }) := by
  unfold hostWrite
  split
  · next h => exact .inl ⟨h, rfl⟩
  · next h =>
    have hb : off < blockSize := Nat.lt_of_not_le h
    cases ha : access s.curve width off with
    | none => exact .inr (.inl ⟨hb, rfl, rfl⟩)
    | some l => exact .inr (.inr ⟨l, hb, rfl, rfl⟩)

/-- Everything the engine's own step can answer (60_exceptions.md R178). -/
theorem engineStep_cases (s : State) :
    (s.busy = false ∧ engineStep s = .next s) ∨
      (s.busy = true ∧ s.pending = none ∧ engineStep s = .fault .busyWithoutPending) ∨
      (∃ p i, s.busy = true ∧ s.pending = some p ∧ verdict s.curve p.word = .legal i ∧
        engineStep s = exec i s) ∨
      (∃ p, s.busy = true ∧ s.pending = some p ∧ (∀ i, verdict s.curve p.word ≠ .legal i) ∧
        engineStep s = .fault .pendingNotLegal) := by
  unfold engineStep
  cases hb : s.busy with
  | false => exact .inl ⟨rfl, by simp⟩
  | true =>
    cases hp : s.pending with
    | none => exact .inr (.inl ⟨rfl, rfl, by simp⟩)
    | some p =>
      cases hv : verdict s.curve p.word with
      | legal i => exact .inr (.inr (.inl ⟨p, i, rfl, rfl, hv, by simp [hv]⟩))
      | illegal => exact .inr (.inr (.inr ⟨p, rfl, rfl, by simp [hv], by simp [hv]⟩))
      | overlap => exact .inr (.inr (.inr ⟨p, rfl, rfl, by simp [hv], by simp [hv]⟩))

/-- Everything a step can be: the engine's own step where nothing comes from outside, or the delivery of the
next input (20_memory.md R73). -/
theorem step_cases (s : State) :
    (s.inputs = [] ∧ step s = engineStep s) ∨
      (∃ e rest, s.inputs = e :: rest ∧ step s = deliver e { s with inputs := rest }) := by
  unfold step advance
  cases h : s.inputs with
  | nil => exact .inl ⟨rfl, rfl⟩
  | cons e rest => exact .inr ⟨e, rest, rfl, rfl⟩

/-! What each input does. -/

@[simp] theorem deliver_read (width off : Nat) (s : State) :
    deliver (.read width off) s = hostRead width off s := rfl
@[simp] theorem deliver_write (width off : Nat) (v : Word) (s : State) :
    deliver (.write width off v) s = hostWrite width off v s := rfl
@[simp] theorem deliver_engineStep (s : State) : deliver .engineStep s = engineStep s := rfl
@[simp] theorem deliver_hardReset (s : State) : deliver .hardReset s = .next s.engineReset := rfl

/-! The operand snapshot (00_scope.md R27). -/

theorem State.snapshot_of_pending {s : State} {p : Pending} (h : s.pending = some p) :
    s.snapshot = p.snapshot := by simp [State.snapshot, h]

theorem State.snapshot_of_none {s : State} (h : s.pending = none) : s.snapshot = s.R := by
  simp [State.snapshot, h]

end Sys2Proof.Machine
end

