-- ==== Sys2Proof/Laws/PerInstr.lean ====
section
/-! SUPPORT. The family TableRow: every constructor's encoding is the row of spec/opcode_table.json that bears
its mnemonic (its mask and its match). One lemma per constructor. -/

namespace Sys2Proof.Laws

/-- The mask of a command's row in spec/opcode_table.json: the bits the row fixes. -/
def rowMask : Instr → Word
  | .nop => 0xFFFFFFFF#32
  | .getbit _ _ => 0xFC000FFF#32
  | .clrbit _ _ => 0xFC00F0FF#32
  | .copy _ _ => 0xFFFF00FF#32
  | .swap _ _ => 0xFFFF00FF#32
  | .equal _ _ => 0xFFF00FFF#32
  | .iszero _ => 0xFFFF0FFF#32
  | .setzero _ => 0xFFFFF0FF#32
  | .degree _ => 0xFFFF0FFF#32
  | .lshift _ _ _ => 0xFC0000FF#32
  | .ldc _ _ => 0xFC00F0FF#32
  | .fsetone _ => 0xFFFFF0FF#32
  | .fisone _ => 0xFFFF0FFF#32
  | .fadd _ _ _ => 0xFFF000FF#32
  | .finc _ => 0xFFFFF0FF#32
  | .fmul _ _ _ => 0xFFF000FF#32
  | .finv _ _ => 0xFFFF00FF#32
  | .fred _ _ => 0xFFFF00FF#32
  | .piszero _ => 0xFFFF0FFF#32
  | .pcopy _ _ => 0xFFFF00FF#32
  | .pdbl _ => 0xFFFFF0FF#32
  | .padd _ _ => 0xFFFF00FF#32
  | .pmul _ _ => 0xFFFF00FF#32
  | .poncurve _ => 0xFFFF0FFF#32
  | .keygen _ _ => 0xFFFF00FF#32
  | .ecdh _ _ _ => 0xFFF000FF#32
  | .sign _ _ _ _ => 0xFF0000FF#32
  | .verify _ _ _ => 0xFF000FFF#32

/-- The match of a command's row: the value of the bits the row fixes. -/
def rowMatch : Instr → Word
  | .nop => 0x00000000#32
  | .getbit _ _ => 0x00000001#32
  | .clrbit _ _ => 0x00000002#32
  | .copy _ _ => 0x00000003#32
  | .swap _ _ => 0x00000004#32
  | .equal _ _ => 0x00000005#32
  | .iszero _ => 0x00000006#32
  | .setzero _ => 0x00000007#32
  | .degree _ => 0x00000008#32
  | .lshift _ _ _ => 0x00000009#32
  | .ldc _ _ => 0x0000000A#32
  | .fsetone _ => 0x00000010#32
  | .fisone _ => 0x00000011#32
  | .fadd _ _ _ => 0x00000012#32
  | .finc _ => 0x00000013#32
  | .fmul _ _ _ => 0x00000014#32
  | .finv _ _ => 0x00000015#32
  | .fred _ _ => 0x00000016#32
  | .piszero _ => 0x00000020#32
  | .pcopy _ _ => 0x00000021#32
  | .pdbl _ => 0x00000022#32
  | .padd _ _ => 0x00000023#32
  | .pmul _ _ => 0x00000024#32
  | .poncurve _ => 0x00000025#32
  | .keygen _ _ => 0x00000030#32
  | .ecdh _ _ _ => 0x00000031#32
  | .sign _ _ _ _ => 0x00000032#32
  | .verify _ _ _ => 0x00000033#32

/-- The command's word has the fixed bits of its row in spec/opcode_table.json (30_encoding.md R84). -/
def TableRow.Statement (i : Instr) : Prop := encode i &&& rowMask i = rowMatch i

/-- A format R word masked by a row: decided bit by bit. -/
theorem wordR_row (op : BitVec 8) (a b c d : BitVec 4) (mask row : Word)
    (h : ∀ i, i < 32 → ((wordR op a b c d).getLsbD i && mask.getLsbD i) = row.getLsbD i) :
    wordR op a b c d &&& mask = row := by
  apply BitVec.eq_of_getLsbD_eq
  intro i hi
  rw [BitVec.getLsbD_and]
  exact h i hi

/-- A format I word masked by a row: decided bit by bit. -/
theorem wordI_row (op : BitVec 8) (a b : BitVec 4) (m : Imm10) (mask row : Word)
    (h : ∀ i, i < 32 → ((wordI op a b m).getLsbD i && mask.getLsbD i) = row.getLsbD i) :
    wordI op a b m &&& mask = row := by
  apply BitVec.eq_of_getLsbD_eq
  intro i hi
  rw [BitVec.getLsbD_and]
  exact h i hi

theorem TableRow.nop : TableRow.Statement .nop := by
  apply wordR_row
  intro i hi
  rw [getLsbD_wordR _ _ _ _ _ _ hi]
  interval_cases i <;> simp [rowMask, rowMatch]

theorem TableRow.getbit (rs1 : Reg) (imm : Imm10) : TableRow.Statement (.getbit rs1 imm) := by
  apply wordI_row
  intro i hi
  rw [getLsbD_wordI _ _ _ _ _ hi]
  interval_cases i <;> simp [rowMask, rowMatch]

theorem TableRow.clrbit (rd : Reg) (imm : Imm10) : TableRow.Statement (.clrbit rd imm) := by
  apply wordI_row
  intro i hi
  rw [getLsbD_wordI _ _ _ _ _ hi]
  interval_cases i <;> simp [rowMask, rowMatch]

theorem TableRow.copy (rd rs1 : Reg) : TableRow.Statement (.copy rd rs1) := by
  apply wordR_row
  intro i hi
  rw [getLsbD_wordR _ _ _ _ _ _ hi]
  interval_cases i <;> simp [rowMask, rowMatch]

theorem TableRow.swap (rd rs1 : Reg) : TableRow.Statement (.swap rd rs1) := by
  apply wordR_row
  intro i hi
  rw [getLsbD_wordR _ _ _ _ _ _ hi]
  interval_cases i <;> simp [rowMask, rowMatch]

theorem TableRow.equal (rs1 rs2 : Reg) : TableRow.Statement (.equal rs1 rs2) := by
  apply wordR_row
  intro i hi
  rw [getLsbD_wordR _ _ _ _ _ _ hi]
  interval_cases i <;> simp [rowMask, rowMatch]

theorem TableRow.iszero (rs1 : Reg) : TableRow.Statement (.iszero rs1) := by
  apply wordR_row
  intro i hi
  rw [getLsbD_wordR _ _ _ _ _ _ hi]
  interval_cases i <;> simp [rowMask, rowMatch]

theorem TableRow.setzero (rd : Reg) : TableRow.Statement (.setzero rd) := by
  apply wordR_row
  intro i hi
  rw [getLsbD_wordR _ _ _ _ _ _ hi]
  interval_cases i <;> simp [rowMask, rowMatch]

theorem TableRow.degree (rs1 : Reg) : TableRow.Statement (.degree rs1) := by
  apply wordR_row
  intro i hi
  rw [getLsbD_wordR _ _ _ _ _ _ hi]
  interval_cases i <;> simp [rowMask, rowMatch]

theorem TableRow.lshift (rd rs1 : Reg) (imm : Imm10) : TableRow.Statement (.lshift rd rs1 imm) := by
  apply wordI_row
  intro i hi
  rw [getLsbD_wordI _ _ _ _ _ hi]
  interval_cases i <;> simp [rowMask, rowMatch]

theorem TableRow.ldc (rd : Reg) (c : ConstName) : TableRow.Statement (.ldc rd c) := by
  apply wordI_row
  intro i hi
  rw [getLsbD_wordI _ _ _ _ _ hi]
  interval_cases i <;> simp [rowMask, rowMatch]

theorem TableRow.fsetone (rd : Reg) : TableRow.Statement (.fsetone rd) := by
  apply wordR_row
  intro i hi
  rw [getLsbD_wordR _ _ _ _ _ _ hi]
  interval_cases i <;> simp [rowMask, rowMatch]

theorem TableRow.fisone (rs1 : Reg) : TableRow.Statement (.fisone rs1) := by
  apply wordR_row
  intro i hi
  rw [getLsbD_wordR _ _ _ _ _ _ hi]
  interval_cases i <;> simp [rowMask, rowMatch]

theorem TableRow.fadd (rd rs1 rs2 : Reg) : TableRow.Statement (.fadd rd rs1 rs2) := by
  apply wordR_row
  intro i hi
  rw [getLsbD_wordR _ _ _ _ _ _ hi]
  interval_cases i <;> simp [rowMask, rowMatch]

theorem TableRow.finc (rd : Reg) : TableRow.Statement (.finc rd) := by
  apply wordR_row
  intro i hi
  rw [getLsbD_wordR _ _ _ _ _ _ hi]
  interval_cases i <;> simp [rowMask, rowMatch]

theorem TableRow.fmul (rd rs1 rs2 : Reg) : TableRow.Statement (.fmul rd rs1 rs2) := by
  apply wordR_row
  intro i hi
  rw [getLsbD_wordR _ _ _ _ _ _ hi]
  interval_cases i <;> simp [rowMask, rowMatch]

theorem TableRow.finv (rd rs1 : Reg) : TableRow.Statement (.finv rd rs1) := by
  apply wordR_row
  intro i hi
  rw [getLsbD_wordR _ _ _ _ _ _ hi]
  interval_cases i <;> simp [rowMask, rowMatch]

theorem TableRow.fred (rd rs1 : Reg) : TableRow.Statement (.fred rd rs1) := by
  apply wordR_row
  intro i hi
  rw [getLsbD_wordR _ _ _ _ _ _ hi]
  interval_cases i <;> simp [rowMask, rowMatch]

theorem TableRow.piszero (ps : Pair) : TableRow.Statement (.piszero ps) := by
  apply wordR_row
  intro i hi
  rw [getLsbD_wordR _ _ _ _ _ _ hi]
  interval_cases i <;> simp [rowMask, rowMatch]

theorem TableRow.pcopy (pd ps : Pair) : TableRow.Statement (.pcopy pd ps) := by
  apply wordR_row
  intro i hi
  rw [getLsbD_wordR _ _ _ _ _ _ hi]
  interval_cases i <;> simp [rowMask, rowMatch]

theorem TableRow.pdbl (pd : Pair) : TableRow.Statement (.pdbl pd) := by
  apply wordR_row
  intro i hi
  rw [getLsbD_wordR _ _ _ _ _ _ hi]
  interval_cases i <;> simp [rowMask, rowMatch]

theorem TableRow.padd (pd ps : Pair) : TableRow.Statement (.padd pd ps) := by
  apply wordR_row
  intro i hi
  rw [getLsbD_wordR _ _ _ _ _ _ hi]
  interval_cases i <;> simp [rowMask, rowMatch]

theorem TableRow.pmul (pd : Pair) (rk : Reg) : TableRow.Statement (.pmul pd rk) := by
  apply wordR_row
  intro i hi
  rw [getLsbD_wordR _ _ _ _ _ _ hi]
  interval_cases i <;> simp [rowMask, rowMatch]

theorem TableRow.poncurve (ps : Pair) : TableRow.Statement (.poncurve ps) := by
  apply wordR_row
  intro i hi
  rw [getLsbD_wordR _ _ _ _ _ _ hi]
  interval_cases i <;> simp [rowMask, rowMatch]

theorem TableRow.keygen (pd : Pair) (rpriv : Reg) : TableRow.Statement (.keygen pd rpriv) := by
  apply wordR_row
  intro i hi
  rw [getLsbD_wordR _ _ _ _ _ _ hi]
  interval_cases i <;> simp [rowMask, rowMatch]

theorem TableRow.ecdh (pd : Pair) (rpriv : Reg) (ppeer : Pair) : TableRow.Statement (.ecdh pd rpriv ppeer) := by
  apply wordR_row
  intro i hi
  rw [getLsbD_wordR _ _ _ _ _ _ hi]
  interval_cases i <;> simp [rowMask, rowMatch]

theorem TableRow.sign (pd : Pair) (rpriv rdig rnonce : Reg) : TableRow.Statement (.sign pd rpriv rdig rnonce) := by
  apply wordR_row
  intro i hi
  rw [getLsbD_wordR _ _ _ _ _ _ hi]
  interval_cases i <;> simp [rowMask, rowMatch]

theorem TableRow.verify (ppub : Pair) (rdig : Reg) (psig : Pair) : TableRow.Statement (.verify ppub rdig psig) := by
  apply wordR_row
  intro i hi
  rw [getLsbD_wordR _ _ _ _ _ _ hi]
  interval_cases i <;> simp [rowMask, rowMatch]

end Sys2Proof.Laws
end

