-- ==== Sys2Proof/Laws/Vec.lean ====
section
/-! SUPPORT. The bits of masked and shifted vectors, and the capacity of a build, once. -/

namespace Sys2Proof

/-- The largest CAP is 576 (00_scope.md R14). -/
theorem Curve.cap_le (c : Curve) : c.cap ≤ 576 := by cases c <;> decide

/-- m + 3 bits fit in CAP (00_scope.md R11, R14). -/
theorem Curve.m_lt_cap (c : Curve) : c.m + 3 ≤ c.cap := by cases c <;> decide

@[simp] theorem getLsbD_vmask (l i : Nat) (hl : l ≤ 576) : (vmask l).getLsbD i = decide (i < l) := by
  rw [vmask, BitVec.getLsbD_ofNat, Nat.testBit_two_pow_sub_one]
  by_cases h : i < l
  · simp [h, show i < 576 by omega]
  · simp [h]

/-- A bit of a shifted vector (41_bitvector.md R98). -/
theorem getLsbD_lshift (c : Curve) (v : Vec) (n i : Nat) :
    (lshift c v n).getLsbD i = (decide (i < c.cap) && decide (n ≤ i) && v.getLsbD (i - n)) := by
  have hc := c.cap_le
  rw [lshift, BitVec.getLsbD_and, BitVec.getLsbD_shiftLeft, getLsbD_vmask _ _ hc]
  by_cases h : i < c.cap
  · by_cases hn : n ≤ i
    · simp [h, hn, show i < 576 by omega, Nat.not_lt.mpr hn]
    · simp [h, hn, Nat.lt_of_not_le hn]
  · simp [h]

/-- A vector fits its build exactly when no bit at CAP or above is set. -/
theorem Vec.fits_iff (c : Curve) (v : Vec) : v.fits c ↔ ∀ i, c.cap ≤ i → v.getLsbD i = false := by
  constructor
  · intro h i hi
    exact Nat.testBit_lt_two_pow (Nat.lt_of_lt_of_le h (Nat.pow_le_pow_right (by decide) hi))
  · intro h
    exact Nat.lt_pow_two_of_testBit _ h

theorem Vec.fits_zero (c : Curve) : Vec.fits c Vec.ZERO :=
  (Vec.fits_iff c _).2 fun _ _ => BitVec.getLsbD_zero

theorem Vec.fits_xor {c : Curve} {a b : Vec} (ha : a.fits c) (hb : b.fits c) : (a ^^^ b).fits c := by
  rw [Vec.fits_iff] at *
  intro i hi
  simp [ha i hi, hb i hi]

theorem Vec.fits_and_left {c : Curve} {a b : Vec} (ha : a.fits c) : (a &&& b).fits c := by
  rw [Vec.fits_iff] at *
  intro i hi
  simp [ha i hi]

theorem Vec.fits_lshift (c : Curve) (v : Vec) (n : Nat) : (lshift c v n).fits c := by
  rw [Vec.fits_iff]
  intro i hi
  rw [getLsbD_lshift]
  simp [Nat.not_lt.mpr hi]

/-- Every constant of a build fits it (10_state.md R53). -/
theorem Vec.fits_const (c : Curve) (n : ConstName) : (c.const n).fits c := by
  cases c <;> cases n <;> decide +kernel

end Sys2Proof
end

