-- ==== Sys2Proof/Machine/Assembly.lean ====
section
/-! DEFINITION. The assembler's spelling of every command and the pseudo-instructions
(30_encoding.md R93, R94). -/

namespace Sys2Proof

/-- `r0`..`r15` (30_encoding.md R93). -/
def regName (r : Reg) : String := "r" ++ toString r.val

/-- `p0, p2, ..., p14` (30_encoding.md R93). -/
def pairName (p : Pair) : String := "p" ++ toString (2 * p.val)

/-- The name of a constant (30_encoding.md R93). -/
def ConstName.spelling : ConstName → String
  | .poly => "POLY"
  | .b => "B"
  | .gx => "GX"
  | .gy => "GY"
  | .order => "N"

/-- Operands separated by commas (30_encoding.md R93). -/
def operands : List String → String
  | [] => ""
  | [a] => " " ++ a
  | a :: rest => " " ++ a ++ "," ++ operands rest

/-- A decimal immediate (30_encoding.md R93). -/
def immText (imm : Imm10) : String := toString imm.toNat

/-- The assembler's spelling of a command (30_encoding.md R93). -/
def Instr.spelling : Instr → String
  | .nop => "NOP"
  | .getbit rs1 imm => "GETBIT" ++ operands [regName rs1, immText imm]
  | .clrbit rd imm => "CLRBIT" ++ operands [regName rd, immText imm]
  | .copy rd rs1 => "COPY" ++ operands [regName rd, regName rs1]
  | .swap rd rs1 => "SWAP" ++ operands [regName rd, regName rs1]
  | .equal rs1 rs2 => "EQUAL" ++ operands [regName rs1, regName rs2]
  | .iszero rs1 => "ISZERO" ++ operands [regName rs1]
  | .setzero rd => "SETZERO" ++ operands [regName rd]
  | .degree rs1 => "DEGREE" ++ operands [regName rs1]
  | .lshift rd rs1 imm => "LSHIFT" ++ operands [regName rd, regName rs1, immText imm]
  | .ldc rd n => "LDC" ++ operands [regName rd, n.spelling]
  | .fsetone rd => "FSETONE" ++ operands [regName rd]
  | .fisone rs1 => "FISONE" ++ operands [regName rs1]
  | .fadd rd rs1 rs2 => "FADD" ++ operands [regName rd, regName rs1, regName rs2]
  | .finc rd => "FINC" ++ operands [regName rd]
  | .fmul rd rs1 rs2 => "FMUL" ++ operands [regName rd, regName rs1, regName rs2]
  | .finv rd rs1 => "FINV" ++ operands [regName rd, regName rs1]
  | .fred rd rs1 => "FRED" ++ operands [regName rd, regName rs1]
  | .piszero ps => "PISZERO" ++ operands [pairName ps]
  | .pcopy pd ps => "PCOPY" ++ operands [pairName pd, pairName ps]
  | .pdbl pd => "PDBL" ++ operands [pairName pd]
  | .padd pd ps => "PADD" ++ operands [pairName pd, pairName ps]
  | .pmul pd rk => "PMUL" ++ operands [pairName pd, regName rk]
  | .poncurve ps => "PONCURVE" ++ operands [pairName ps]
  | .keygen pd rpriv => "KEYGEN" ++ operands [pairName pd, regName rpriv]
  | .ecdh pd rpriv ppeer => "ECDH" ++ operands [pairName pd, regName rpriv, pairName ppeer]
  | .sign pd rpriv rdig rnonce =>
      "SIGN" ++ operands [pairName pd, regName rpriv, regName rdig, regName rnonce]
  | .verify ppub rdig psig => "VERIFY" ++ operands [pairName ppub, regName rdig, pairName psig]

/-- The pseudo-instructions (30_encoding.md R94); none has an opcode of its own. -/
inductive Pseudo where
  | fsqr (rd rs : Reg)
  | psetzero (pd : Pair)
  | pneg (pd ps : Pair)
  | fclr (rd : Reg)
  | fsub (rd rs1 rs2 : Reg)
  | ldg (pd : Pair)
deriving DecidableEq, Repr

/-- The commands a pseudo-instruction stands for (30_encoding.md R94); none where its condition forbids it.
FSQR with rd = rs expands to the FMUL that raises ALIAS. -/
def Pseudo.expand : Pseudo → Option (List Instr)
  | .fsqr rd rs => some [.fmul rd rs rs]
  | .psetzero pd => some [.setzero pd.rx, .setzero pd.ry]
  | .pneg pd ps => if pd = ps then none else some [.copy pd.rx ps.rx, .fadd pd.ry ps.rx ps.ry]
  | .fclr rd => some [.setzero rd]
  | .fsub rd rs1 rs2 => some [.fadd rd rs1 rs2]
  | .ldg pd => some [.ldc pd.rx .gx, .ldc pd.ry .gy]

end Sys2Proof
end

