-- ==== Sys2Proof/Tests/Slice0.lean ====
section
/-! SUPPORT. Tests. Expected values are the spec's own: the tables of 95_test_vectors.md, the examples of the
rules, and, where a comment says so, a hand calculation from a rule. The last part holds one witness for the
hypotheses of each statement. -/

open Sys2Proof Sys2Proof.Machine

/-! One theorem at a time: the kernel evaluations below, run side by side, ask for many large stacks. -/
set_option Elab.async false

namespace Sys2Proof.Tests

/-! Helpers. -/

/-- An idle K-163 engine with some registers set. -/
def kst (l : List (Reg × Vec)) : State := State.reset.setRegs l

/-- An idle engine of any build. -/
def cst (c : Curve) (l : List (Reg × Vec)) : State := (State.resetOf c).setRegs l

/-- The next state of an outcome. -/
def nextOf : Host.Outcome State Fault Refusal → Option State
  | .next t => some t
  | .fault _ => none
  | .refused _ => none

/-- The state after a word is placed and run. -/
def ran (s : State) (w : Nat) : Option State := nextOf (step (s.withFetchWord 32 w))

/-- What the state after a word shows: a register, RES, STATUS. -/
def showsReg (s : State) (w : Nat) (r : Reg) (v : Vec) (st : Word) : Bool :=
  match ran s w with
  | none => false
  | some t => t.reg r == v && t.statusWord == st

/-- The same for a command that writes RES. -/
def showsRes (s : State) (w : Nat) (res st : Word) : Bool :=
  match ran s w with
  | none => false
  | some t => t.res == res && t.statusWord == st

/-- STATUS and FINFO after a host write to CMD. -/
def cmdShows (s : State) (w st info : Word) : Bool :=
  match nextOf (hostWrite 32 0x010 w s) with
  | none => false
  | some t => t.statusWord == st && t.finfo == info

theorem next_of_isSome {o : Host.Outcome State Fault Refusal} (h : (nextOf o).isSome = true) :
    ∃ t, o = .next t := by
  cases o with
  | next t => exact ⟨t, rfl⟩
  | fault r => simp [nextOf] at h
  | refused r => simp [nextOf] at h

theorem some_of_isSome {α : Type} {o : Option α} (h : o.isSome = true) : ∃ a, o = some a :=
  Option.isSome_iff_exists.mp h

/-- G of K-163 (10_state.md R54), and its coordinates. -/
def gx : Vec := 0x2FE13C0537BBC11ACAA07D793DE4E6D5E5C94EEE8#576
def gy : Vec := 0x289070FB05D38FF58321F2E800536D538CCDAA3D9#576
/-- 2G of K-163 (43_point.md R139). -/
def g2x : Vec := 0xCB5CA2738FE300AACFB00B42A77B828D8A5C41EB#576
def g2y : Vec := 0x229C79E9AB85F90ACD3D5FA3A696664515EFEFA6B#576
/-- 3G of K-163 (43_point.md R140). -/
def g3x : Vec := 0x2ACFCFCC9A2AF8E3F2828024F820033DB20F69520#576
def g3y : Vec := 0x5729C47F915BADC7B4C17DF14E5804109FFECDFE4#576
/-- Bit 191, the top bit of a K-163 vector (CAP - 1). -/
def top : Vec := 0x800000000000000000000000000000000000000000000000#576

/-! Well-formedness: an ill-formed command for each check (30_encoding.md R90, R91). -/

theorem test_wf_bit_index :
    (Instr.getbit 3 191#10).wellFormed .k163 ∧ ¬ (Instr.getbit 3 192#10).wellFormed .k163 ∧
    ¬ (Instr.clrbit 1 1023#10).wellFormed .k163 ∧ (Instr.clrbit 1 575#10).wellFormed .k571 ∧
    ¬ (Instr.clrbit 1 576#10).wellFormed .k571 := by decide +kernel

theorem test_wf_overlap :
    ¬ (Instr.fmul 3 2 3).wellFormed .k163 ∧ (Instr.fmul 3 3 2).wellFormed .k163 ∧
    ¬ (Instr.keygen 2 4).wellFormed .k163 ∧ ¬ (Instr.keygen 2 5).wellFormed .k163 ∧
    (Instr.keygen 2 6).wellFormed .k163 := by decide +kernel

/-! Decoding: every constructor, from the words of 95_test_vectors.md part 2 (GETBIT to VERIFY), and for each
family one word written out field by field from R81 and R82. -/

theorem test_decode_bitvector :
    ([(0x00000000#32, .nop), (0x00BF1001#32, .getbit 1 191#10), (0x00010102#32, .clrbit 1 1#10),
      (0x00001203#32, .copy 2 1), (0x00002104#32, .swap 1 2), (0x00021005#32, .equal 1 2),
      (0x00001006#32, .iszero 1), (0x00000107#32, .setzero 1), (0x00001008#32, .degree 1),
      (0x00BE1209#32, .lshift 2 1 190#10), (0x0004030A#32, .ldc 3 .order)] :
      List (Word × Instr)).all (fun p => verdict .k163 p.1 == .legal p.2) = true := by decide +kernel

theorem test_decode_field :
    ([(0x00000110#32, .fsetone 1), (0x00001011#32, .fisone 1), (0x00021312#32, .fadd 3 1 2),
      (0x00000113#32, .finc 1), (0x00021314#32, .fmul 3 1 2), (0x00001215#32, .finv 2 1),
      (0x00001216#32, .fred 2 1)] :
      List (Word × Instr)).all (fun p => verdict .k163 p.1 == .legal p.2) = true := by decide +kernel

theorem test_decode_point :
    ([(0x00000020#32, .piszero 0), (0x00000221#32, .pcopy 1 0), (0x00000022#32, .pdbl 0),
      (0x00002023#32, .padd 0 1), (0x00004024#32, .pmul 0 4), (0x00000025#32, .poncurve 0)] :
      List (Word × Instr)).all (fun p => verdict .k163 p.1 == .legal p.2) = true := by decide +kernel

theorem test_decode_protocol :
    ([(0x00002430#32, .keygen 2 2), (0x00062831#32, .ecdh 4 2 3),
      (0x00DC2E32#32, .sign 7 2 12 13), (0x00EC4033#32, .verify 2 12 7)] :
      List (Word × Instr)).all (fun p => verdict .k163 p.1 == .legal p.2) = true := by decide +kernel

/-- Fields from bit 31 down: imm10 and the zero bits of format I; zero, rs3, rs2, rs1, rd of format R. -/
theorem test_decode_written_out :
    verdict .k163 (0b000000#6 ++ 0b0010111110#10 ++ 0b0001#4 ++ 0b0010#4 ++ 0b00001001#8) =
      .legal (.lshift 2 1 190#10) ∧
    verdict .k163 (0b00000000#8 ++ 0b0000#4 ++ 0b0010#4 ++ 0b0001#4 ++ 0b0011#4 ++ 0b00010100#8) =
      .legal (.fmul 3 1 2) ∧
    verdict .k163 (0b00000000#8 ++ 0b0000#4 ++ 0b0000#4 ++ 0b0010#4 ++ 0b0000#4 ++ 0b00100011#8) =
      .legal (.padd 0 1) ∧
    verdict .k163 (0b00000000#8 ++ 0b1101#4 ++ 0b1100#4 ++ 0b0010#4 ++ 0b1110#4 ++ 0b00110010#8) =
      .legal (.sign 7 2 12 13) := by decide +kernel

/-- Refused words of 95_test_vectors.md parts 2.1 to 2.5, with the check of R92 that refuses each. -/
theorem test_decode_refused :
    decode .k163 0x000000FF#32 = .error .opcode ∧ decode .k163 0x01000000#32 = .error .highBits ∧
    decode .k163 0x04000009#32 = .error .highBits ∧
    decode .k163 0x00000100#32 = .error .unusedField ∧
    decode .k163 0x00031215#32 = .error .unusedField ∧
    decode .k163 0x00000322#32 = .error .oddPoint ∧ decode .k163 0x00000122#32 = .error .oddPoint ∧
    decode .k163 0x03FF0102#32 = .error .immRange ∧ decode .k163 0x00C01001#32 = .error .immRange ∧
    decode .k163 0x0005030A#32 = .error .immRange ∧
    verdict .k163 0x00032314#32 = .overlap ∧ verdict .k163 0x00005430#32 = .overlap := by decide +kernel

theorem test_encode :
    encode (.fmul 4 2 3) = 0x00032414#32 ∧ encode (.lshift 1 2 33#10) = 0x00212109#32 ∧
    encode (.sign 4 4 5 6) = 0x00654832#32 ∧ encode (.verify 1 5 4) = 0x00852033#32 := by decide +kernel

theorem test_decodeTableWord :
    decodeTableWord 32 0x00032414 = some (.fmul 4 2 3) ∧ decodeTableWord 32 0x000000FF = none ∧
    decodeTableWord 8 0x14 = some (.fmul 0 0 0) := by decide +kernel

/-- The examples of 30_encoding.md R93, and two rows of R94. -/
theorem test_spelling :
    (Instr.fmul 4 2 3).spelling = "FMUL r4, r2, r3" ∧
    (Instr.lshift 1 2 33#10).spelling = "LSHIFT r1, r2, 33" ∧
    (Instr.sign 4 4 5 6).spelling = "SIGN p8, r4, r5, r6" ∧
    (Instr.ldc 2 .gx).spelling = "LDC r2, GX" ∧ Instr.nop.spelling = "NOP" := by decide +kernel

theorem test_pseudo :
    (Pseudo.ldg 0).expand = some [.ldc 0 .gx, .ldc 1 .gy] ∧
    (Pseudo.pneg 2 1).expand = some [.copy 4 2, .fadd 5 2 3] ∧ (Pseudo.pneg 1 1).expand = none := by
  decide +kernel

/-! The build parameters (00_scope.md R14, R15; 10_state.md R54). -/

theorem test_capacity :
    [Curve.k163, .k233, .k283, .k409, .k571].map (fun c => (c.nwords, c.cap, c.keyBytes)) =
      [(6, 192, 24), (8, 256, 32), (9, 288, 36), (13, 416, 52), (18, 576, 72)] := by decide +kernel

/-- POLY's exponents as R54 writes them. -/
def exponents : List Nat → Vec
  | [] => Vec.ZERO
  | e :: es => (Vec.ONE <<< e) ||| exponents es

theorem test_poly_exponents :
    Curve.poly .k163 = exponents [163, 7, 6, 3, 0] ∧ Curve.poly .b163 = exponents [163, 7, 6, 3, 0] ∧
    Curve.poly .k233 = exponents [233, 74, 0] ∧ Curve.poly .b233 = exponents [233, 74, 0] ∧
    Curve.poly .k283 = exponents [283, 12, 7, 5, 0] ∧
    Curve.poly .b283 = exponents [283, 12, 7, 5, 0] ∧
    Curve.poly .k409 = exponents [409, 87, 0] ∧ Curve.poly .b409 = exponents [409, 87, 0] ∧
    Curve.poly .k571 = exponents [571, 10, 5, 2, 0] ∧
    Curve.poly .b571 = exponents [571, 10, 5, 2, 0] := by decide +kernel

/-- R54's first check: the base point of every build is on its curve; and deg N as R54 lists it. -/
theorem test_base_points :
    [Curve.k163, .b163, .k233, .b233, .k283, .b283, .k409, .b409, .k571, .b571].map
      (fun c => (onCurve c c.basePoint, deg c.order)) =
      [(true, 163), (true, 163), (true, 232), (true, 233), (true, 281), (true, 282), (true, 407),
        (true, 409), (true, 570), (true, 570)] := by decide +kernel

/-! What each command does: rows of 95_test_vectors.md parts 2.1 to 2.4. STATUS 0x2 is DONE with PSTAT 0. -/

theorem test_nop : showsRes (kst [(1, 5#576)]) 0x00000000 0 0x2 = true := by decide +kernel

theorem test_getbit : showsRes (kst [(1, top)]) 0x00BF1001 1 0x2 = true ∧
    showsRes (kst [(1, 5#576)]) 0x00011001 0 0x2 = true := by decide +kernel

theorem test_clrbit : showsReg (kst [(1, 5#576)]) 0x00000102 1 4#576 0x2 = true ∧
    showsReg (kst [(1, 5#576)]) 0x00010102 1 5#576 0x2 = true := by decide +kernel

theorem test_copy : showsReg (kst [(1, 0xABC#576), (2, 7#576)]) 0x00001203 2 0xABC#576 0x2 = true := by
  decide +kernel

theorem test_swap : showsReg (kst [(1, 1#576), (2, 2#576)]) 0x00002104 1 2#576 0x2 = true ∧
    showsReg (kst [(1, 1#576), (2, 2#576)]) 0x00002104 2 1#576 0x2 = true ∧
    showsReg (kst [(3, 9#576)]) 0x00003304 3 9#576 0x2 = true := by decide +kernel

theorem test_equal : showsRes (kst [(1, top)]) 0x00021005 0 0x2 = true ∧
    showsRes (kst [(1, top), (2, top)]) 0x00021005 1 0x2 = true := by decide +kernel

theorem test_iszero : showsRes (kst [(1, top)]) 0x00001006 0 0x2 = true ∧
    showsRes (kst []) 0x00001006 1 0x2 = true := by decide +kernel

theorem test_setzero : showsReg (kst [(1, top)]) 0x00000107 1 0#576 0x2 = true := by decide +kernel

theorem test_degree : showsRes (kst [(1, top)]) 0x00001008 192 0x2 = true ∧
    showsRes (kst [(1, 1#576)]) 0x00001008 1 0x2 = true ∧
    showsRes (kst []) 0x00001008 0 0x2 = true := by decide +kernel

theorem test_lshift : showsReg (kst [(1, top ||| 3#576)]) 0x00011209 2 6#576 0x2 = true ∧
    showsReg (kst [(1, 3#576)]) 0x00C01209 2 0#576 0x2 = true := by decide +kernel

theorem test_ldc :
    showsReg (kst []) 0x0004030A 3 0x4000000000000000000020108A2E0CC0D99F8A5EF#576 0x2 = true ∧
    showsReg (kst []) 0x0002020A 2 gx 0x2 = true := by decide +kernel

theorem test_fsetone : showsReg (kst [(1, 0xFF#576)]) 0x00000110 1 1#576 0x2 = true := by decide +kernel

theorem test_fisone : showsRes (kst [(1, 1#576)]) 0x00001011 1 0x2 = true ∧
    showsRes (kst [(1, 0x80000000000000000000000000000000000000001#576)]) 0x00001011 0 0x2 = true := by
  decide +kernel

theorem test_fadd : showsReg (kst [(1, 0xC#576), (2, 0xA#576)]) 0x00021312 3 6#576 0x2 = true := by
  decide +kernel

theorem test_finc : showsReg (kst []) 0x00000113 1 1#576 0x2 = true ∧
    showsReg (kst [(1, 1#576)]) 0x00000113 1 0#576 0x2 = true := by decide +kernel

/-- t^162 times t is reduced; an unreduced right operand's bit 163 is not read. -/
theorem test_fmul :
    showsReg (kst [(1, 0x40000000000000000000000000000000000000000#576), (2, 2#576)])
      0x00021314 3 0xC9#576 0x2 = true ∧
    showsReg (kst [(1, 1#576), (2, 0x80000000000000000000000000000000000000000#576)])
      0x00021314 3 0#576 0x2 = true := by decide +kernel

/-- R123's example with both operands other than ONE: fmul(t^163, 0x3) = t^164 + t^163, unreduced. -/
theorem test_fmul_unreduced :
    showsReg (kst [(1, Vec.ONE <<< 163), (2, 3#576)]) 0x00021314 3
      (Vec.ONE <<< 164 ||| Vec.ONE <<< 163) 0x2 = true := by decide +kernel

/-- STATUS 0x34: ERR with NOT_INVERTIBLE; R2 keeps its value. -/
theorem test_finv :
    showsReg (kst [(1, gx)]) 0x00001215 2 0x63F514F39F4587684F96C8DD6558E69339A1EFED9#576 0x2 = true ∧
    showsReg (kst [(2, 7#576)]) 0x00001215 2 7#576 0x34 = true := by decide +kernel

theorem test_fred : showsReg (kst [(1, top)]) 0x00001216 2 0xC90000000#576 0x2 = true ∧
    showsReg (kst [(1, 0x180000000000000000000000000000000000000000#576)]) 0x00001216 2 0x15B#576 0x2 =
      true := by decide +kernel

theorem test_piszero : showsRes (kst []) 0x00000020 1 0x2 = true ∧
    showsRes (kst [(1, 1#576)]) 0x00000020 0 0x2 = true := by decide +kernel

theorem test_pcopy : showsReg (kst [(0, gx), (1, gy)]) 0x00000221 3 gy 0x2 = true := by decide +kernel

theorem test_pdbl : showsReg (kst [(0, gx), (1, gy)]) 0x00000022 0 g2x 0x2 = true ∧
    showsReg (kst [(0, gx), (1, gy)]) 0x00000022 1 g2y 0x2 = true ∧
    showsReg (kst [(1, 5#576)]) 0x00000022 1 0#576 0x2 = true := by decide +kernel

theorem test_padd :
    showsReg (kst [(0, g2x), (1, g2y), (2, gx), (3, gy)]) 0x00002023 0 g3x 0x2 = true ∧
    showsReg (kst [(0, g2x), (1, g2y), (2, gx), (3, gy)]) 0x00002023 1 g3y 0x2 = true := by
  decide +kernel

theorem test_pmul : showsReg (kst [(0, gx), (1, gy), (4, 3#576)]) 0x00004024 0 g3x 0x2 = true := by
  decide +kernel

/-- The scalar is read from the snapshot before the pair is written (PMUL p0, r0). -/
theorem test_pmul_snapshot :
    showsReg (kst [(0, 2#576), (1, gy)]) 0x00000024 0
      0x2B602DFA3C7705B816E7300EBFE8EF597681D236C#576 0x2 = true := by decide +kernel

theorem test_poncurve : showsRes (kst [(0, gx), (1, gy)]) 0x00000025 1 0x2 = true ∧
    showsRes (kst [(0, gx), (1, gy ^^^ 1#576)]) 0x00000025 0 0x2 = true := by decide +kernel

/-- The key t^162 + t^3 plus an overflow bit is masked: p' = 0x8, pub = 8G. -/
theorem test_keygen :
    showsReg (kst [(2, 0x4000000000000000000000000000000000000000008#576)]) 0x00002430 4
      0x3A11E19CC4C0B15CD4C7D5A5CF2D5A8C383287DA8#576 0x2 = true := by decide +kernel

/-- STATUS 0x102: DONE with WEAK_PRIVATE_KEY; nothing written. -/
theorem test_keygen_weak :
    showsReg (kst [(2, 0x80000000000000000000#576), (4, 7#576)]) 0x00002430 4 7#576 0x102 = true := by
  decide +kernel

/-- Private key 1 and peer G: the secret is G (R141), and 2G with the cofactor step (R166, h = 2). -/
theorem test_ecdh :
    showsReg (kst [(2, 1#576), (6, gx), (7, gy)]) 0x00062831 9 gy 0x2 = true ∧
    showsReg { kst [(2, 1#576), (6, gx), (7, gy)] with ctrl := ⟨false, true, false⟩ }
      0x00062831 9 g2y 0x2 = true := by decide +kernel

/-- STATUS 0x202: DONE with INVALID_PEER_PUBLIC_KEY, for the identity and for a point off the curve. -/
theorem test_ecdh_invalid :
    showsReg (kst [(2, 1#576), (8, 5#576)]) 0x00062831 8 5#576 0x202 = true ∧
    showsReg (kst [(2, 1#576), (6, gx), (7, gy ^^^ 1#576)]) 0x00062831 8 0#576 0x202 = true := by
  decide +kernel

/-- Nonce 1 and private key t^100: r = GX and s = z + t^100 * GX, by hand from R167 and R122. -/
theorem test_sign :
    showsReg (kst [(2, Vec.ONE <<< 100), (12, 0xC0FFEE#576), (13, 1#576)]) 0x00DC2E32 15
      0x5E4E6D5E5C94EED2B073BFF572EA0436CF08E73B1#576 0x2 = true := by decide +kernel

/-- Zero nonce (STATUS 0x302), and the weak key checked before it (STATUS 0x102). -/
theorem test_sign_failures :
    showsReg (kst [(2, 0x10000000000000000001234567#576), (14, 5#576)]) 0x00DC2E32 14 5#576 0x302 =
      true ∧
    showsRes (kst [(2, 0x80000000000000000000#576)]) 0x00DC2E32 0 0x102 = true := by decide +kernel

/-- Q = O, s = 1, z = 1, r = GX: X = 1*G + GX*O = G matches (by hand from R169, as the last row of the table). -/
theorem test_verify :
    showsRes (kst [(12, 1#576), (14, gx), (15, 1#576)]) 0x00EC4033 1 0x2 = true ∧
    showsRes (kst [(12, 1#576), (14, 1#576), (15, 1#576)]) 0x00EC4033 0 0x602 = true := by
  decide +kernel

theorem test_verify_encoding :
    showsRes (kst [(12, 1#576), (14, gx)]) 0x00EC4033 0 0x502 = true ∧
    showsRes (kst [(12, 1#576), (15, gx)]) 0x00EC4033 0 0x502 = true := by decide +kernel

/-! Host accesses, faults and reset: rows of 95_test_vectors.md part 2.5. -/

theorem test_identification : idWord .k163 = 0x463200A3#32 ∧ cfgWord .k163 = 0x001460A6#32 := by
  decide +kernel

/-- Rows 2 to 7: an access that faults with BUS (STATUS 0x54) and returns 0. -/
theorem test_bus_faults :
    [(32, 0x01C), (8, 0x000), (32, 0x002), (32, 0x118)].map
      (fun a => (nextOf (hostRead a.1 a.2 State.reset)).map
        (fun t => (t.rdata, t.statusWord, t.finfo))) =
      [some (some 0#32, 0x54#32, 0x1C#32), some (some 0#32, 0x54#32, 0x0#32),
        some (some 0#32, 0x54#32, 0x2#32), some (some 0#32, 0x54#32, 0x118#32)] ∧
    [0x000, 0x900].map (fun a => (nextOf (hostWrite 32 a 1#32 State.reset)).map
        (fun t => (t.statusWord, t.finfo))) =
      [some (0x54#32, 0x0#32), some (0x54#32, 0x900#32)] := by decide +kernel

/-- Row 9: word 1 of R1. -/
theorem test_data_window :
    (nextOf (hostWrite 32 0x184 7#32 State.reset)).map (fun t => (t.reg 1, t.readWord 0x184)) =
      some (0x700000000#576, some 7#32) := by decide +kernel

/-- Rows 10 to 12: OVERRUN (STATUS 0x44) while a NOP is pending. -/
theorem test_overrun :
    [(0x100, 5#32), (0x010, 0#32), (0x008, 1#32)].map
      (fun a => (nextOf (hostWrite 32 a.1 a.2 (State.reset.accept 0#32))).map
        (fun t => (t.statusWord, t.finfo, t.ctrl.word, t.reg 0))) =
      [some (0x44#32, 0x100#32, 0#32, 0#576), some (0x44#32, 0x10#32, 0#32, 0#576),
        some (0x44#32, 0x8#32, 0#32, 0#576)] := by decide +kernel

/-- Rows 13 to 15: in ERROR a CMD write is ignored, a BUS fault rewrites ECODE, a soft reset clears it all. -/
theorem test_error_state :
    cmdShows (State.reset.raiseFault .notInvertible 0x1215#32) 0#32 0x34 0x1215 = true ∧
    (nextOf (hostRead 32 0x01C (State.reset.raiseFault .notInvertible 0x1215#32))).map
      (fun t => (t.statusWord, t.finfo)) = some (0x54#32, 0x1C#32) ∧
    nextOf (hostWrite 32 0x008 0x80000000#32
      ((kst [(3, 9#576)]).raiseFault .notInvertible 0x1215#32)) = some State.reset := by decide +kernel

/-- Row 16: the completion interrupt and its clearing. -/
theorem test_interrupt :
    (ran { State.reset with ctrl := ⟨false, false, true⟩ } 0).map
      (fun t => (t.statusWord, t.irq, (nextOf (hostWrite 32 0x00C 2#32 t)).map
        (fun u => (u.statusWord, u.irq)))) =
      some (0x2#32, true, some (0x0#32, false)) := by decide +kernel

/-- Rows 17 and 21: ILLEGAL (STATUS 0x14) and ALIAS (STATUS 0x24) at acceptance. -/
theorem test_decode_faults : cmdShows State.reset 0x000000FF 0x14 0x000000FF = true ∧
    cmdShows State.reset 0x00032314 0x24 0x00032314 = true := by decide +kernel

/-- The buffer of S.x in program 2 of 95_test_vectors.md, little-endian: its first and last eight bytes. -/
theorem test_host_buffer :
    (vecBytes .little .k163 0x5D9B12E8B3D5D0B34B8C7B7EAA7455F5FF6C2F6E7#576).take 8 =
      [0xE7#8, 0xF6#8, 0xC2#8, 0xF6#8, 0x5F#8, 0x5F#8, 0x45#8, 0xA7#8] ∧
    (vecBytes .little .k163 0x5D9B12E8B3D5D0B34B8C7B7EAA7455F5FF6C2F6E7#576).drop 16 =
      [0x8B#8, 0x2E#8, 0xB1#8, 0xD9#8, 0x05#8, 0x00#8, 0x00#8, 0x00#8] := by decide +kernel

/-! Witnesses: for each statement with hypotheses, a concrete state and operands that meet them, clause by
clause, at the boundaries of their ranges. A statement not named here has no hypothesis. -/

/-- A K-163 engine with a legal command pending. -/
def busy (l : List (Reg × Vec)) (w : Word) : State := (kst l).accept w

/-- A K-163 engine in ERROR. -/
def inError : State := (kst [(3, 9#576)]).raiseFault .bus 0x1C#32

theorem inv_idle : (kst [(1, top), (15, gx)]).Inv where
  regs_fit := by decide +kernel
  pending_iff_busy := by decide +kernel
  busy_not_err := by decide +kernel
  busy_not_done := by decide +kernel
  err_not_done := by decide +kernel
  err_iff_ecode := by decide +kernel
  snapshot_eq := fun p h => nomatch h
  word_eq := fun p h => nomatch h
  pending_legal := fun p h => nomatch h

theorem inv_error : inError.Inv where
  regs_fit := by decide +kernel
  pending_iff_busy := by decide +kernel
  busy_not_err := by decide +kernel
  busy_not_done := by decide +kernel
  err_not_done := by decide +kernel
  err_iff_ecode := by decide +kernel
  snapshot_eq := fun p h => nomatch h
  word_eq := fun p h => nomatch h
  pending_legal := fun p h => nomatch h

theorem busy_pending :
    (busy [(1, gx)] 0x00001215#32).pending =
      some ⟨0x00001215#32, (busy [(1, gx)] 0x00001215#32).R⟩ := by decide +kernel

theorem inv_busy : (busy [(1, gx)] 0x00001215#32).Inv where
  regs_fit := by decide +kernel
  pending_iff_busy := by decide +kernel
  busy_not_err := by decide +kernel
  busy_not_done := by decide +kernel
  err_not_done := by decide +kernel
  err_iff_ecode := by decide +kernel
  snapshot_eq := by
    intro p h
    rw [busy_pending] at h
    cases h
    rfl
  word_eq := by
    intro p h
    rw [busy_pending] at h
    cases h
    decide +kernel
  pending_legal := by
    intro p h
    rw [busy_pending] at h
    cases h
    exact ⟨.finv 2 1, by decide +kernel⟩

theorem witness_DegreeIsIndexOfHighestSetBit :
    Vec.ZERO.fits .k163 ∧ top.fits .k163 ∧ top ≠ Vec.ZERO ∧ deg top ≤ 192 ∧
    Vec.fits .b571 (Vec.ONE <<< 575) := by decide +kernel

theorem witness_LshiftMultipliesByPowerOfTwo : top.fits .k163 ∧ Curve.cap .k163 ≤ 192 := by decide +kernel

theorem witness_BitIsReadAndCleared :
    0 < Curve.cap .k163 ∧ 191 < Curve.cap .k163 ∧ (0 : Nat) ≠ 191 ∧
    opField 0x00C01001#32 = 0x01#8 ∧ Curve.cap .k163 ≤ (immField 0x00C01001#32).toNat ∧
    opField 0x00C00102#32 = 0x02#8 ∧ Curve.cap .k163 ≤ (immField 0x00C00102#32).toNat := by
  decide +kernel

theorem witness_BitVectorLaws :
    Vec.fits .k163 3#576 ∧ (3#576 : Vec) ≠ Vec.ZERO ∧ deg 3#576 + 190 ≤ Curve.cap .k163 ∧
    getBit top 191 = true ∧ (kst [(1, 1#576), (2, 2#576)]).snapshot = (kst [(1, 1#576), (2, 2#576)]).R ∧
    ∃ t u, exec (.swap 1 2) (kst [(1, 1#576), (2, 2#576)]) = .next t ∧ exec (.swap 1 2) t = .next u :=
  ⟨by decide +kernel, by decide +kernel, by decide +kernel, by decide +kernel, rfl, _, _, rfl, rfl⟩

theorem witness_EncodedCommandIsLegal :
    (Instr.getbit 3 191#10).wellFormed .k163 ∧ (Instr.lshift 15 0 1023#10).wellFormed .b409 ∧
    (Instr.ldc 0 .order).wellFormed .k571 ∧ (Instr.verify 7 15 7).wellFormed .k233 := by decide +kernel

theorem witness_LegalWordIsTheEncoding :
    verdict .k163 0x00BF1001#32 = .legal (.getbit 1 191#10) ∧
    verdict .b571 0x023F0102#32 = .legal (.clrbit 1 575#10) := by decide +kernel

/-- The ends of each range of opcodes. -/
theorem witness_UnassignedOpcodesAreIllegal :
    ([0x0B#32, 0x0F#32, 0x17#32, 0x1F#32, 0x26#32, 0x2F#32, 0x34#32, 0xFF#32].map
      (fun w => (opField w).toNat)) = [0x0B, 0x0F, 0x17, 0x1F, 0x26, 0x2F, 0x34, 0xFF] := by
  decide +kernel

theorem witness_ReservedHighBitsAreIllegal :
    (opField 0x04000009#32 = 0x09#8 ∧ (0x04000009#32).extractLsb' 26 6 ≠ 0) ∧
    (opField 0x01000000#32 ≠ 0x01#8 ∧ opField 0x01000000#32 ≠ 0x02#8 ∧ opField 0x01000000#32 ≠ 0x09#8 ∧
      opField 0x01000000#32 ≠ 0x0A#8 ∧ (0x01000000#32).extractLsb' 24 8 ≠ 0) := by decide +kernel

theorem witness_OddPointFieldsAreIllegal :
    (opField 0x00000122#32 = 0x22#8 ∧ (0x00000122#32).getLsbD 8 = true) ∧
    (opField 0x00001020#32 = 0x20#8 ∧ (0x00001020#32).getLsbD 12 = true) ∧
    (opField 0x00010031#32 = 0x31#8 ∧ (0x00010031#32).getLsbD 16 = true) ∧
    (opField 0x00100033#32 = 0x33#8 ∧ (0x00100033#32).getLsbD 20 = true) := by decide +kernel

theorem witness_ImmediateRanges :
    opField 0x00C01001#32 = 0x01#8 ∧ Curve.cap .k163 ≤ (immField 0x00C01001#32).toNat ∧
    opField 0x0005030A#32 = 0x0A#8 ∧ 4 < (immField 0x0005030A#32).toNat ∧
    Curve.cap .k163 ≤ (192#10).toNat ∧ (kst []).curve = .k163 := by decide +kernel

theorem witness_HardResetSetsEveryPiece :
    { inError with inputs := [.hardReset] }.inputs = .hardReset :: [] := rfl

theorem witness_SoftResetIsHardReset :
    (0x80000000#32 : Word).getLsbD 31 = true ∧ (0xFFFFFFFF#32 : Word).getLsbD 31 = true := by decide

theorem witness_ErrorIsLeftOnlyByReset :
    inError.err = true ∧
    (∃ t, step { inError with inputs := [.write 32 0x010 0#32] } = .next t) ∧
    (∃ t, step { inError with inputs := [.write 32 0x008 0x80000000#32] } = .next t) :=
  ⟨rfl, next_of_isSome (by decide +kernel), next_of_isSome (by decide +kernel)⟩

theorem witness_AcceptanceOfACommandWord :
    inError.err = true ∧
    ((busy [] 0#32).err = false ∧ (busy [] 0#32).busy = true) ∧
    ((kst []).err = false ∧ (kst []).busy = false ∧ verdict (kst []).curve 0xFF#32 = .illegal ∧
      verdict (kst []).curve 0x00032314#32 = .overlap ∧
      verdict (kst []).curve 0x00032414#32 = .legal (.fmul 4 2 3)) := by decide +kernel

theorem witness_StepRunsDecodedCommand :
    (busy [(1, gx)] 0x00001215#32).busy = true ∧
    (busy [(1, gx)] 0x00001215#32).pending =
      some ⟨0x00001215#32, (busy [(1, gx)] 0x00001215#32).R⟩ ∧
    verdict (busy [(1, gx)] 0x00001215#32).curve 0x00001215#32 = .legal (.finv 2 1) ∧
    (busy [(1, gx)] 0x00001215#32).inputs = [] ∧
    { busy [(1, gx)] 0x00001215#32 with inputs := [.engineStep] }.inputs = .engineStep :: [] :=
  ⟨by decide +kernel, busy_pending, by decide +kernel, by decide +kernel, rfl⟩

theorem witness_PlacedWordRunsNext :
    (0x00032414#32 : Word) = BitVec.ofNat 32 (0x00032414 % 2 ^ 32) ∧
    verdict inError.curve 0x00032414#32 = .legal (.fmul 4 2 3) := by decide +kernel

theorem witness_StepKeepsInvariant :
    (busy [(1, gx)] 0x00001215#32).Inv ∧ (∃ t, step (busy [(1, gx)] 0x00001215#32) = .next t) ∧
    inError.Inv ∧ ∃ t, step inError = .next t :=
  ⟨inv_busy, next_of_isSome (by decide +kernel), inv_error, next_of_isSome (by decide +kernel)⟩

theorem witness_SoundStatesAlwaysGoOn : (kst [(1, top), (15, gx)]).Inv ∧ inError.Inv :=
  ⟨inv_idle, inv_error⟩

theorem witness_CurveParametersNeverChange :
    (∃ t, step (busy [(1, gx)] 0x00001215#32) = .next t) ∧
    5 < (busy [(1, gx)] 0x00001215#32).curve.nwords :=
  ⟨next_of_isSome (by decide +kernel), by decide +kernel⟩

/-- FINV r2, r1: CMD, word 0 of the next register, the slot word NWORDS of R2 itself and the constant window are
offsets the clause speaks of. -/
theorem witness_CommandFrame :
    (∃ t, exec (.finv 2 1) (kst [(1, gx)]) = .next t) ∧ (1 : Reg) ∉ dests (.finv 2 1) ∧
    writesRes (.finv 2 1) = false ∧
    ∀ off, off = 0x010 ∨ off = 0x280 ∨ off = 0x218 ∨ off = 0x900 →
      (∀ r w, r ∈ dests (.finv 2 1) → w < (kst [(1, gx)]).curve.nwords → off ≠ dataOff r w) ∧
      off ≠ 0x00C ∧ off ≠ 0x014 ∧ off ≠ 0x018 := by
  have hn : (kst [(1, gx)]).curve.nwords = 6 := by decide +kernel
  refine ⟨next_of_isSome (by decide +kernel), by decide, rfl, fun off h => ⟨fun r w hr hw => ?_, ?_⟩⟩
  · simp only [dests, List.mem_singleton] at hr
    have h2 : dataOff r w = 0x200 + 4 * w := by rw [hr]; rfl
    omega
  · omega

theorem witness_ResIsWrittenByElevenCommands :
    (writesRes (.degree 1) = true ∧ ∃ t u, exec (.degree 1) { kst [(1, top)] with res := 3 } = .next t ∧
      exec (.degree 1) { kst [(1, top)] with res := 4 } = .next u ∧ t.done = true) ∧
    (writesRes (.copy 2 1) = false ∧ ∃ t, exec (.copy 2 1) (kst [(1, top)]) = .next t) :=
  ⟨⟨rfl, _, _, rfl, rfl, rfl⟩, rfl, _, rfl⟩

theorem witness_PstatIsWrittenByEveryCompletion :
    (∃ t u, exec (.copy 2 1) { kst [] with pstat := .zeroNonce } = .next t ∧
      exec (.copy 2 1) { kst [] with pstat := .ok } = .next u ∧ t.done = true) ∧
    (opField (encode (.copy 2 1))).toNat < 0x30 ∧
    (∃ t, nextOf (exec (.finv 2 1) { kst [] with pstat := .zeroNonce }) = some t ∧ t.done = false) :=
  ⟨⟨_, _, rfl, rfl, rfl⟩, by decide,
    (State.raiseFault { kst [] with pstat := .zeroNonce } .notInvertible 0), by decide +kernel, rfl⟩

theorem witness_ReadsHaveNoSideEffect :
    (0x000 < 0xC00 ∧ (kst []).readWord 0x000 = some 0x463200A3#32) ∧
    (0xB14 < 0xC00 ∧ (kst []).readWord 0xB14 = some 4#32) := by decide +kernel

theorem witness_DataWindowReadsAndWrites :
    0 < (kst []).curve.nwords ∧ 5 < (kst []).curve.nwords ∧ (kst []).busy = false ∧
    (busy [] 0#32).busy = true ∧ 5 < (busy [] 0#32).curve.nwords ∧
    17 < (cst .b571 []).curve.nwords := by decide +kernel

theorem witness_ConstantWindowIsReadOnly :
    0 < (kst []).curve.nwords ∧ 5 < (kst []).curve.nwords ∧ 17 < (cst .k571 []).curve.nwords := by
  decide +kernel

/-- The ends of each unmapped range: 0x01C and 0x0FC, word 6 of a slot of either window (K-163), 0xB80 and
0xBFC; and the four read-only registers. -/
theorem witness_UnmappedAndReadOnlyOffsetsFault :
    ([0x01C, 0x0FC, 0x118, 0x17C, 0x918, 0xB7C, 0xB80, 0xBFC, 0x000, 0x004, 0x014, 0x018].all
      fun off => decide (off < 0xC00 ∧ off % 4 = 0)) = true ∧
    ([0x118, 0x17C, 0x918, 0xB7C].all
      fun off => decide (0x100 ≤ off ∧ (kst []).curve.nwords ≤ off % 0x80 / 4)) = true := by
  decide +kernel

theorem witness_NarrowOrMisalignedAccessFaults :
    (0x000 < 0xC00 ∧ (8 ≠ 32 ∨ 0x000 % 4 ≠ 0)) ∧ (0xBFE < 0xC00 ∧ (32 ≠ 32 ∨ 0xBFE % 4 ≠ 0)) ∧
    (0xBFC < 0xC00 ∧ (64 ≠ 32 ∨ 0xBFC % 4 ≠ 0)) := by decide

theorem witness_StatusRegisterLayoutAndWrite :
    (0x2#32 : Word).getLsbD 1 = true ∧ (0xFFFFFFFD#32 : Word).getLsbD 1 = false := by decide

theorem witness_CtrlRegisterLayoutAndWrite :
    (0x7FFFFFFF#32 : Word).getLsbD 31 = false ∧ (kst []).busy = false ∧ (busy [] 0#32).busy = true := by
  decide +kernel

/-- A state with a completion interrupt, and one with an error interrupt. -/
theorem witness_InterruptOutput :
    (0x2#32 : Word).getLsbD 1 = true ∧
    (∃ t, hostWrite 32 0x00C 2#32 { kst [] with done := true, ctrl := ⟨false, false, true⟩ } =
      .next t) ∧
    (kst []).err = false ∧ (kst []).busy = false ∧ verdict (kst []).curve 0#32 = .legal .nop ∧
    (∃ t, hostWrite 32 0x010 0#32 { kst [] with done := true, ctrl := ⟨false, false, true⟩ } =
      .next t) ∧
    { inError with ctrl := ⟨false, false, true⟩ }.err = true ∧
    { inError with ctrl := ⟨false, false, true⟩ }.irq = true ∧
    ∃ t, step { inError with ctrl := ⟨false, false, true⟩, inputs := [.write 32 0x008 0#32] } =
      .next t :=
  ⟨by decide, next_of_isSome (by decide +kernel), by decide +kernel, by decide +kernel,
    by decide +kernel, next_of_isSome (by decide +kernel), rfl, rfl,
    next_of_isSome (by decide +kernel)⟩

theorem witness_OverrunAbortsThePendingCommand :
    (busy [] 0#32).busy = true ∧ (busy [] 0#32).err = false ∧ (0x1#32 : Word).getLsbD 31 = false ∧
    5 < (busy [] 0#32).curve.nwords ∧ 0x100 < 0xC00 ∧ (busy [] 0#32).readWord 0x100 = some 0#32 ∧
    (0x80000000#32 : Word).getLsbD 31 = true := by decide +kernel

theorem witness_VectorStoredThroughTheWindow :
    { kst [(1, gx)] with inputs := storeVec .k163 2 top }.busy = false ∧ top.fits .k163 ∧
    (State.reg { kst [(1, gx)] with inputs := storeVec .k163 2 top } 2).fits .k163 ∧
    { kst [(1, gx)] with inputs := storeVec .k163 2 top }.inputs = storeVec .k163 2 top ∧
    (kst [(1, gx)]).curve = .k163 := by decide +kernel

theorem witness_HostBufferLayout :
    top.fits .k163 ∧ gx.fits .k163 ∧ 0 < Curve.keyBytes .k163 ∧ 23 < Curve.keyBytes .k163 ∧
    5 < Curve.nwords .k163 ∧ 3 < 4 := by decide +kernel

theorem witness_ResultDoesNotDependOnPolling :
    { kst [(1, gx)] with inputs := hostRun 0x00001215#32 2 }.err = false ∧
    { kst [(1, gx)] with inputs := hostRun 0x00001215#32 2 }.busy = false ∧
    verdict (kst [(1, gx)]).curve 0x00001215#32 = .legal (.finv 2 1) ∧
    { kst [(1, gx)] with inputs := hostRun 0x00001215#32 2 }.inputs = hostRun 0x00001215#32 2 := by
  decide +kernel

theorem witness_FmulIsTheFieldProduct : gx.reduced .k163 ∧ Vec.reduced .k163 (Vec.ONE <<< 162) := by
  decide +kernel

theorem witness_FmulLaws : gx.reduced .k163 ∧ gy.reduced .k163 ∧ Vec.reduced .k163 (Vec.ONE <<< 162) := by
  decide +kernel

/-- A reduced operand, and an unreduced one that finv inverts. -/
theorem witness_FinvIsTheInverse :
    Vec.fits .k163 2#576 ∧ Vec.reduced .k163 2#576 ∧
    finv .k163 2#576 = some 0x40000000000000000000000000000000000000064#576 ∧
    top.fits .k163 ∧ ∃ z, finv .k163 top = some z :=
  ⟨by decide +kernel, by decide +kernel, by decide +kernel, by decide +kernel,
    some_of_isSome (by decide +kernel)⟩

theorem poly_dvd_self (p : Polynomial (ZMod 2)) : p ∣ p := dvd_refl p

theorem witness_FinvSucceedsExactlyOnUnits :
    (Curve.poly .k163).fits .k163 ∧ toPoly (Curve.poly .k163) ∣ toPoly (Curve.poly .k163) ∧
    Vec.ZERO.fits .k163 ∧ (Vec.ONE <<< 162 : Vec).toNat < 2 ^ Curve.cap .k163 ∧
    Vec.reduced .k163 (Vec.ONE <<< 162) ∧ (Vec.ONE <<< 162 : Vec) ≠ Vec.ZERO ∧
    (kst [(0, gx), (1, gy), (2, g2x), (3, g2y)]).curve = .k163 ∧
    ((kst [(0, gx), (1, gy), (2, g2x), (3, g2y)]).opdPoint 0).reduced .k163 ∧
    ((kst [(0, gx), (1, gy), (2, g2x), (3, g2y)]).opdPoint 1).reduced .k163 :=
  ⟨by decide +kernel, poly_dvd_self _, by decide +kernel, by decide +kernel, by decide +kernel,
    by decide +kernel, by decide +kernel, ⟨by decide +kernel, by decide +kernel⟩,
    ⟨by decide +kernel, by decide +kernel⟩⟩

theorem witness_FredLaws : top.fits .k163 ∧ (Curve.poly .k163).fits .k163 := by decide +kernel

theorem witness_TimingPoliciesAgree : top.fits .k163 ∧ Vec.ZERO.fits .k163 := by decide +kernel

theorem witness_PointIdentityLaws : (⟨Vec.ZERO, 5#576⟩ : Point).x = Vec.ZERO := rfl

theorem reduced_g : (⟨gx, gy⟩ : Point).reduced .k163 :=
  ⟨by decide +kernel, by decide +kernel⟩

theorem reduced_2g : (⟨g2x, g2y⟩ : Point).reduced .k163 :=
  ⟨by decide +kernel, by decide +kernel⟩

theorem witness_PointArithmeticStaysOnTheCurve :
    (⟨g2x, g2y⟩ : Point).reduced .k163 ∧ (⟨gx, gy⟩ : Point).reduced .k163 ∧
    onCurve .k163 ⟨g2x, g2y⟩ = true ∧ onCurve .k163 ⟨gx, gy⟩ = true ∧
    pdbl .k163 ⟨gx, gy⟩ = some ⟨g2x, g2y⟩ ∧
    padd .k163 ⟨g2x, g2y⟩ ⟨gx, gy⟩ = some ⟨g3x, g3y⟩ ∧
    padd .k163 ⟨gx, gy⟩ ⟨gx, gy⟩ = some ⟨g2x, g2y⟩ :=
  ⟨reduced_2g, reduced_g, by decide +kernel, by decide +kernel, by decide +kernel, by decide +kernel,
    by decide +kernel⟩

theorem witness_PaddIsCommutative :
    (⟨gx, gy⟩ : Point).reduced .k163 ∧ (⟨g2x, g2y⟩ : Point).reduced .k163 := ⟨reduced_g, reduced_2g⟩

theorem witness_MultiplesOfTheBasePointAreOnTheCurve :
    pmul .k163 (Curve.basePoint .k163) 3#576 = some ⟨g3x, g3y⟩ ∧
    pmul .k163 (Curve.basePoint .k163) Vec.ZERO = some Point.O := by decide +kernel

theorem witness_FieldCommandsComplete :
    (3 : Reg) ≠ 2 ∧ finv (kst [(1, 2#576)]).curve ((kst [(1, 2#576)]).opd 1) =
      some 0x40000000000000000000000000000000000000064#576 := by decide +kernel

/-- P0 = G, P2 = 2G and R4 = 3: the three functions return 2G, 3G and 3G. -/
def pointState : State := kst [(0, gx), (1, gy), (2, g2x), (3, g2y), (4, 3#576)]

theorem witness_PointCommandsComplete :
    pdbl pointState.curve ⟨pointState.opd (Pair.rx 0), pointState.opd (Pair.ry 0)⟩ = some ⟨g2x, g2y⟩ ∧
    padd pointState.curve ⟨pointState.opd (Pair.rx 0), pointState.opd (Pair.ry 0)⟩
      ⟨pointState.opd (Pair.rx 1), pointState.opd (Pair.ry 1)⟩ = some ⟨g3x, g3y⟩ ∧
    pmul pointState.curve ⟨pointState.opd (Pair.rx 0), pointState.opd (Pair.ry 0)⟩ (pointState.opd 4) =
      some ⟨g3x, g3y⟩ := by decide +kernel

/-- R0 and R15 hold POLY, the nonzero multiple of f; R4 = 2; P2 = (0, 1), so that the difference of the two x
is POLY. The five clauses hold on this one state. -/
def faultState : State :=
  kst [(0, Curve.poly .k163), (1, 1#576), (3, 1#576), (4, 2#576), (14, gx), (15, Curve.poly .k163)]

theorem witness_NotInvertibleFaultsCommitNothing :
    finv faultState.curve (faultState.opd 0) = none ∧
    finv faultState.curve (faultState.opd 2) = none ∧
    pdbl faultState.curve ⟨faultState.opd (Pair.rx 0), faultState.opd (Pair.ry 0)⟩ = none ∧
    padd faultState.curve ⟨faultState.opd (Pair.rx 0), faultState.opd (Pair.ry 0)⟩
      ⟨faultState.opd (Pair.rx 1), faultState.opd (Pair.ry 1)⟩ = none ∧
    pmul faultState.curve ⟨faultState.opd (Pair.rx 0), faultState.opd (Pair.ry 0)⟩ (faultState.opd 4) =
      none ∧
    faultState.opd (Pair.rx 7) ≠ Vec.ZERO ∧ faultState.opd (Pair.ry 7) ≠ Vec.ZERO ∧
    finv faultState.curve (faultState.opd (Pair.ry 7)) = none := by decide +kernel

/-- One build for each of R161's thresholds, and scalars at the threshold of K-163. -/
theorem witness_WeakKeyAndOrderMask :
    [Curve.k163, .k233, .k283, .k409, .k571].map Curve.m = [163, 233, 283, 409, 571] ∧
    deg (Vec.ONE <<< 79) < Curve.m .k163 / 2 ∧ ¬ deg (Vec.ONE <<< 80) < Curve.m .k163 / 2 := by
  decide +kernel

/-- The key register outside the pair; a weak key, and t^170 + 1, which is not weak and is masked to 1. -/
theorem witness_KeygenCompletes :
    (2 : Reg) ≠ Pair.rx 2 ∧ (2 : Reg) ≠ Pair.ry 2 ∧
    deg ((kst [(2, Vec.ONE <<< 79)]).opd 2) < (kst [(2, Vec.ONE <<< 79)]).curve.m / 2 ∧
    (kst [(2, Vec.ONE <<< 170 ||| 1#576)]).curve.m / 2 ≤
      deg ((kst [(2, Vec.ONE <<< 170 ||| 1#576)]).opd 2) ∧
    pmul .k163 (Curve.basePoint .k163) (maskN .k163 ((kst [(2, Vec.ONE <<< 170 ||| 1#576)]).opd 2)) =
      some ⟨gx, gy⟩ := by decide +kernel

/-- Private key 1 in R2; the peer in P6. -/
def ecdhState (c : Curve) (cofv : Bool) (q : Point) : State :=
  { cst c [(2, 1#576), (6, q.x), (7, q.y)] with ctrl := ⟨false, cofv, false⟩ }

/-- The point in P6. -/
def peer (s : State) : Point := ⟨s.opd (Pair.rx 3), s.opd (Pair.ry 3)⟩

/-- The identity; a point off the curve; G without the cofactor step; G with it, one doubling on K-163. -/
theorem witness_EcdhCompletes :
    peer (ecdhState .k163 false Point.O) = Point.O ∧
    onCurve .k163 (peer (ecdhState .k163 false ⟨gx, gy ^^^ 1#576⟩)) = false ∧
    (∀ b : Bool, peer (ecdhState .k163 b ⟨gx, gy⟩) ≠ Point.O ∧
      onCurve (ecdhState .k163 b ⟨gx, gy⟩).curve (peer (ecdhState .k163 b ⟨gx, gy⟩)) = true ∧
      pmul (ecdhState .k163 b ⟨gx, gy⟩).curve (peer (ecdhState .k163 b ⟨gx, gy⟩))
        ((ecdhState .k163 b ⟨gx, gy⟩).opd 2) = some ⟨gx, gy⟩ ∧
      (ecdhState .k163 b ⟨gx, gy⟩).ctrl.cofv = b) ∧
    (ecdhState .k163 true ⟨gx, gy⟩).curve.cofactor = 2 ∧
    pdbl (ecdhState .k163 true ⟨gx, gy⟩).curve ⟨gx, gy⟩ = some ⟨g2x, g2y⟩ := by decide +kernel

/-- The clause for h = 4: the base point of K-233, doubled twice. -/
theorem witness_EcdhCompletes_h4 :
    ∃ d e : Point,
      peer (ecdhState .k233 true (Curve.basePoint .k233)) ≠ Point.O ∧
      onCurve .k233 (peer (ecdhState .k233 true (Curve.basePoint .k233))) = true ∧
      pmul .k233 (peer (ecdhState .k233 true (Curve.basePoint .k233)))
        ((ecdhState .k233 true (Curve.basePoint .k233)).opd 2) = some (Curve.basePoint .k233) ∧
      (ecdhState .k233 true (Curve.basePoint .k233)).ctrl.cofv = true ∧
      (ecdhState .k233 true (Curve.basePoint .k233)).curve = .k233 ∧ Curve.cofactor .k233 = 4 ∧
      pdbl .k233 (Curve.basePoint .k233) = some d ∧ pdbl .k233 d = some e := by
  obtain ⟨e, he⟩ := some_of_isSome
    (o := (pdbl .k233 (Curve.basePoint .k233)).bind (pdbl .k233)) (by decide +kernel)
  obtain ⟨d, hd, hde⟩ := Option.bind_eq_some_iff.mp he
  exact ⟨d, e, by decide +kernel, by decide +kernel, by decide +kernel, by decide +kernel,
    by decide +kernel, by decide +kernel, hd, hde⟩

/-- A weak key; a zero nonce; nonce 1, where the multiple is G and the inverse is 1. The r = 0 outcome is met by
nonce N (95_test_vectors.md part 2.4), and s = 0 by the digest t^100 * GX. -/
theorem witness_SignCompletes :
    deg ((kst [(2, 1#576)]).opd 2) < (kst [(2, 1#576)]).curve.m / 2 ∧
    ((kst [(2, Vec.ONE <<< 100)]).curve.m / 2 ≤ deg ((kst [(2, Vec.ONE <<< 100)]).opd 2) ∧
      (kst [(2, Vec.ONE <<< 100)]).opd 13 = Vec.ZERO) ∧
    ((kst [(2, Vec.ONE <<< 100), (13, 1#576)]).opd 13 ≠ Vec.ZERO ∧
      pmul .k163 (Curve.basePoint .k163) ((kst [(2, Vec.ONE <<< 100), (13, 1#576)]).opd 13) =
        some ⟨gx, gy⟩ ∧
      finv .k163 ((kst [(2, Vec.ONE <<< 100), (13, 1#576)]).opd 13) = some Vec.ONE) ∧
    fmul .k163 Vec.ONE (maskN .k163 0x5E4E6D5E5C94EED2B073BFF572EA0436CF04E8C5F#576 ^^^
      fmul .k163 gx (Vec.ONE <<< 100)) = Vec.ZERO := by decide +kernel

/-- Digest 1, signature (r, 1), public key O: u1 = 1, so that X = G. -/
def verifyState (r : Vec) : State := kst [(12, 1#576), (14, r), (15, 1#576)]

/-- A zero component; r = GX (match) and r = 1 (mismatch), with X = G. -/
theorem witness_VerifyCompletes :
    (kst [(14, gx)]).opd (Pair.ry 7) = Vec.ZERO ∧
    [gx, 1#576].all (fun r => decide
      ((verifyState r).opd (Pair.rx 7) = r ∧ (verifyState r).opd (Pair.rx 7) ≠ Vec.ZERO ∧
        (verifyState r).opd (Pair.ry 7) ≠ Vec.ZERO ∧
        finv (verifyState r).curve ((verifyState r).opd (Pair.ry 7)) = some Vec.ONE ∧
        pmul (verifyState r).curve (verifyState r).curve.basePoint
          (fmul (verifyState r).curve (maskN (verifyState r).curve ((verifyState r).opd 12)) Vec.ONE) =
          some ⟨gx, gy⟩ ∧
        pmul (verifyState r).curve
          ⟨(verifyState r).opd (Pair.rx 2), (verifyState r).opd (Pair.ry 2)⟩
          (fmul (verifyState r).curve ((verifyState r).opd (Pair.rx 7)) Vec.ONE) = some Point.O ∧
        padd (verifyState r).curve ⟨gx, gy⟩ Point.O = some ⟨gx, gy⟩)) = true ∧
    gx ≠ 1#576 := by decide +kernel

/-! NOT_INVERTIBLE inside ECDH, SIGN and VERIFY. The two peers are on their curve with unreduced coordinates
(43_point.md R136, R144): on K-163 x is the multiple t^2 + 1 of f; on K-233 the double's x is the multiple t of f. -/

def peer163 : Point :=
  ⟨0x2800000000000000000000000000000000000003ED#576, 0x2AC8A3C9346B5AA903FCED895FFC3CB6B2523A4DDEB22F55#576⟩

def peer233 : Point :=
  ⟨0x66A8146071505191B5358E463816AFF08E31282C268066024FEB2014812A2A04#576,
    0x8C9ED5138369AE256AAB442A7501E893D868E6172A979C0DD1BF88C28E27081B#576⟩

/-- Private key 2 meets a non-invertible x in the multiple; key 1 in the first cofactor doubling. ECDH run on the
first ends with STATUS 0x34, nothing written. -/
theorem witness_NotInvertible_ecdh :
    peer (ecdhState .k163 true peer163) = peer163 ∧ peer163 ≠ Point.O ∧ onCurve .k163 peer163 = true ∧
    pmul .k163 peer163 ((ecdhState .k163 true peer163).setReg 2 2#576 |>.opd 2) = none ∧
    (ecdhState .k163 true peer163).ctrl.cofv = true ∧
    pmul .k163 peer163 ((ecdhState .k163 true peer163).opd 2) = some peer163 ∧
    pdbl .k163 peer163 = none ∧
    showsReg (kst [(2, 2#576), (6, peer163.x), (7, peer163.y), (8, 5#576)]) 0x00062831 8 5#576 0x34 =
      true := by decide +kernel

/-- The second cofactor doubling, h = 4. -/
theorem witness_NotInvertible_ecdh_h4 :
    ∃ d : Point,
      peer (ecdhState .k233 true peer233) = peer233 ∧ peer233 ≠ Point.O ∧
      onCurve .k233 peer233 = true ∧ (ecdhState .k233 true peer233).ctrl.cofv = true ∧
      (ecdhState .k233 true peer233).curve.cofactor = 4 ∧
      pmul .k233 peer233 ((ecdhState .k233 true peer233).opd 2) = some peer233 ∧
      pdbl .k233 peer233 = some d ∧ pdbl .k233 d = none := by
  obtain ⟨d, hd⟩ := some_of_isSome (o := pdbl .k233 peer233) (by decide +kernel)
  have hn : (pdbl .k233 peer233).bind (pdbl .k233) = none := by decide +kernel
  rw [hd] at hn
  exact ⟨d, by decide +kernel, by decide +kernel, by decide +kernel, by decide +kernel,
    by decide +kernel, by decide +kernel, hd, hn⟩

/-- Private key t^100, nonce POLY. -/
theorem witness_NotInvertible_sign :
    (kst [(2, Vec.ONE <<< 100), (13, Curve.poly .k163)]).curve.m / 2 ≤
      deg ((kst [(2, Vec.ONE <<< 100), (13, Curve.poly .k163)]).opd 2) ∧
    (kst [(2, Vec.ONE <<< 100), (13, Curve.poly .k163)]).opd 13 ≠ Vec.ZERO ∧
    finv .k163 ((kst [(2, Vec.ONE <<< 100), (13, Curve.poly .k163)]).opd 13) = none := by decide +kernel

/-- Digest 1, public key in P4, signature (r, 1) in P14. -/
def verifyWith (q : Point) (r : Vec) : State :=
  kst [(4, q.x), (5, q.y), (12, 1#576), (14, r), (15, 1#576)]

/-- Twice a public key with x = POLY; then G plus a public key whose x differs from GX by POLY. -/
theorem witness_NotInvertible_verify :
    (verifyWith ⟨Curve.poly .k163, 1#576⟩ 2#576).opd (Pair.rx 7) ≠ Vec.ZERO ∧
    (verifyWith ⟨Curve.poly .k163, 1#576⟩ 2#576).opd (Pair.ry 7) ≠ Vec.ZERO ∧
    finv .k163 ((verifyWith ⟨Curve.poly .k163, 1#576⟩ 2#576).opd (Pair.ry 7)) = some Vec.ONE ∧
    pmul .k163 ((verifyWith ⟨Curve.poly .k163, 1#576⟩ 2#576).opdPoint 2)
      (fmul .k163 ((verifyWith ⟨Curve.poly .k163, 1#576⟩ 2#576).opd (Pair.rx 7)) Vec.ONE) = none ∧
    (verifyWith ⟨gx ^^^ Curve.poly .k163, 1#576⟩ 1#576).opd (Pair.rx 7) = Vec.ONE ∧
    (verifyWith ⟨gx ^^^ Curve.poly .k163, 1#576⟩ 1#576).opd (Pair.ry 7) = Vec.ONE ∧
    finv .k163 Vec.ONE = some Vec.ONE ∧
    pmul .k163 (Curve.basePoint .k163)
      (fmul .k163 (maskN .k163 ((verifyWith ⟨gx ^^^ Curve.poly .k163, 1#576⟩ 1#576).opd 12)) Vec.ONE) =
      some ⟨gx, gy⟩ ∧
    pmul .k163 ((verifyWith ⟨gx ^^^ Curve.poly .k163, 1#576⟩ 1#576).opdPoint 2)
      (fmul .k163 Vec.ONE Vec.ONE) = some ⟨gx ^^^ Curve.poly .k163, 1#576⟩ ∧
    padd .k163 ⟨gx, gy⟩ ⟨gx ^^^ Curve.poly .k163, 1#576⟩ = none := by decide +kernel

end Sys2Proof.Tests
end

section
/-! What a command computes, apart from the engine around it (60_exceptions.md R172, R178): every command ends
in `finish` of a value that depends on the build, on CTRL.COFV and on the operands of the snapshot only. -/

namespace Sys2Proof.Machine

/-- The point a pair of operands holds (10_state.md R32). -/
def operandPoint (opd : Reg → Vec) (p : Pair) : Point := ⟨opd p.rx, opd p.ry⟩

/-- The results a command leaves to be committed, none where it raises NOT_INVERTIBLE, as a function of the
build, CTRL.COFV and the operands. `exec_eq_finish` ties it to the dispatch. -/
def cmdResult (i : Instr) (c : Curve) (cofv : Bool) (opd : Reg → Vec) : Option CmdResult :=
  match i with
  | .nop => some (.regs [])
  | .getbit rs1 imm => some (.scalar (boolWord (getBit (opd rs1) imm.toNat)))
  | .clrbit rd imm => some (.regs [(rd, clearBit (opd rd) imm.toNat)])
  | .copy rd rs1 => some (.regs [(rd, opd rs1)])
  | .swap rd rs1 => some (.regs [(rd, opd rs1), (rs1, opd rd)])
  | .equal rs1 rs2 => some (.scalar (boolWord (opd rs1 == opd rs2)))
  | .iszero rs1 => some (.scalar (boolWord (opd rs1 == Vec.ZERO)))
  | .setzero rd => some (.regs [(rd, Vec.ZERO)])
  | .degree rs1 => some (.scalar (zext32 (deg (opd rs1))))
  | .lshift rd rs1 imm => some (.regs [(rd, lshift c (opd rs1) imm.toNat)])
  | .ldc rd n => some (.regs [(rd, c.const n)])
  | .fsetone rd => some (.regs [(rd, Vec.ONE)])
  | .fisone rs1 => some (.scalar (boolWord (opd rs1 == Vec.ONE)))
  | .fadd rd rs1 rs2 => some (.regs [(rd, opd rs1 ^^^ opd rs2)])
  | .finc rd => some (.regs [(rd, opd rd ^^^ Vec.ONE)])
  | .fmul rd rs1 rs2 => some (.regs [(rd, fmul c (opd rs1) (opd rs2))])
  | .finv rd rs1 => (finv c (opd rs1)).map fun v => .regs [(rd, v)]
  | .fred rd rs1 => some (.regs [(rd, fred c (opd rs1))])
  | .piszero ps => some (.scalar (boolWord (isIdentity (operandPoint opd ps))))
  | .pcopy pd ps => some (.regs (pairWrites pd (operandPoint opd ps)))
  | .pdbl pd => (pdbl c (operandPoint opd pd)).map fun q => .regs (pairWrites pd q)
  | .padd pd ps =>
      (padd c (operandPoint opd pd) (operandPoint opd ps)).map fun q => .regs (pairWrites pd q)
  | .pmul pd rk => (pmul c (operandPoint opd pd) (opd rk)).map fun q => .regs (pairWrites pd q)
  | .poncurve ps => some (.scalar (boolWord (onCurve c (operandPoint opd ps))))
  | .keygen pd rpriv => keygenResult c pd rpriv (opd rpriv)
  | .ecdh pd rpriv ppeer => ecdhResult c cofv pd (opd rpriv) (operandPoint opd ppeer)
  | .sign pd rpriv rdig rnonce => signResult c pd (opd rpriv) (opd rdig) (opd rnonce)
  | .verify ppub rdig psig =>
      verifyResult c (operandPoint opd ppub) (opd rdig) (operandPoint opd psig)

/-- Every command reads the build, CTRL.COFV and its operands, and ends by committing what it computed from
them or by raising NOT_INVERTIBLE (60_exceptions.md R172, R178). -/
theorem exec_eq_finish (i : Instr) (s : State) :
    exec i s = s.finish (cmdResult i s.curve s.ctrl.cofv s.opd) := by
  cases i <;> rfl

/-! The state under the other timing policy (00_scope.md R17). -/

@[simp] theorem State.withUniform_curve (s : State) (b : Bool) :
    (s.withUniform b).curve = s.curve := rfl
@[simp] theorem State.withUniform_cofv (s : State) (b : Bool) :
    (s.withUniform b).ctrl.cofv = s.ctrl.cofv := rfl
@[simp] theorem State.withUniform_opd (s : State) (b : Bool) : (s.withUniform b).opd = s.opd := rfl

theorem State.setRegs_withUniform (s : State) (b : Bool) (ws : List (Reg × Vec)) :
    (s.withUniform b).setRegs ws = (s.setRegs ws).withUniform b := by
  induction ws generalizing s with
  | nil => rfl
  | cons w ws ih => exact ih (s.setReg w.1 w.2)

theorem State.commit_withUniform (s : State) (b : Bool) (r : CmdResult) :
    (s.withUniform b).commit r = (s.commit r).withUniform b := by
  rw [State.commit, State.setRegs_withUniform]
  rfl

theorem State.raiseFault_withUniform (s : State) (b : Bool) (code : ECode) (info : Word) :
    (s.withUniform b).raiseFault code info = (s.raiseFault code info).withUniform b := rfl

theorem State.cmdWord_withUniform (s : State) (b : Bool) : (s.withUniform b).cmdWord = s.cmdWord := rfl

/-- The end of a command, completion or fault, does not look at the timing policy. -/
theorem State.finish_withUniform (s : State) (b : Bool) (o : Option CmdResult) :
    (s.withUniform b).finish o = mapNext (fun t => t.withUniform b) (s.finish o) := by
  cases o with
  | some r => rw [State.finish_some, State.finish_some, State.commit_withUniform, mapNext]
  | none =>
    rw [State.finish_none, State.finish_none, State.cmdWord_withUniform,
      State.raiseFault_withUniform, mapNext]

/-- Settles O28: a command's results do not depend on UNIFORM, and neither does its end. -/
theorem uniformHasNoEffect : Obligations.UniformHasNoEffect := by
  intro i s b
  rw [exec_eq_finish, exec_eq_finish, State.withUniform_curve, State.withUniform_cofv,
    State.withUniform_opd, State.finish_withUniform]

end Sys2Proof.Machine
end

section
/-! The words of a vector (20_memory.md R66): they determine a vector that fits its build. -/

namespace Sys2Proof

/-- Bit `i` of word `w` is bit `32 * w + i` of the vector. -/
theorem getLsbD_getWord (v : Vec) (w : Nat) {i : Nat} (hi : i < 32) :
    (getWord v w).getLsbD i = v.getLsbD (32 * w + i) := by
  simp [getWord, hi]

@[simp] theorem getWord_zero (w : Nat) : getWord Vec.ZERO w = 0#32 := by
  simp [getWord]

@[simp] theorem length_vecWords (c : Curve) (v : Vec) : (vecWords c v).length = c.nwords := by
  simp [vecWords]

/-- Two vectors of a build with the same NWORDS words are equal. -/
theorem Vec.eq_of_getWord_eq {c : Curve} {a b : Vec} (ha : a.fits c) (hb : b.fits c)
    (h : ∀ w < c.nwords, getWord a w = getWord b w) : a = b := by
  rw [Vec.fits_iff] at ha hb
  apply BitVec.eq_of_getLsbD_eq
  intro i _
  rcases Nat.lt_or_ge i c.cap with hlt | hge
  · have hw : i / 32 < c.nwords := Nat.div_lt_of_lt_mul hlt
    have hbit := congrArg (·.getLsbD (i % 32)) (h (i / 32) hw)
    have hmod : i % 32 < 32 := Nat.mod_lt i (by decide)
    simpa only [getLsbD_getWord _ _ hmod, Nat.div_add_mod] using hbit
  · rw [ha i hge, hb i hge]

theorem vecWords_eq_iff {c : Curve} {a b : Vec} (ha : a.fits c) (hb : b.fits c) :
    vecWords c a = vecWords c b ↔ a = b := by
  constructor
  · intro h
    rw [vecWords, vecWords, List.map_inj_left] at h
    exact Vec.eq_of_getWord_eq ha hb fun w hw => h w (List.mem_range.mpr hw)
  · rintro rfl
    rfl

theorem vecWords_all_zero_iff {c : Curve} {a : Vec} (ha : a.fits c) :
    (∀ w ∈ vecWords c a, w = 0#32) ↔ a = Vec.ZERO := by
  simp only [vecWords, List.forall_mem_map, List.mem_range]
  constructor
  · intro h
    exact Vec.eq_of_getWord_eq ha (Vec.fits_zero c) fun w hw => by rw [h w hw, getWord_zero]
  · rintro rfl w _
    exact getWord_zero w

end Sys2Proof
end

section
/-! The code shapes of the two timing policies against the plain functions (41_bitvector.md R100,
42_field.md R122, 43_point.md R135). -/

namespace Sys2Proof

/-! The tests on words. -/

theorem equalWordsFast_eq_true_iff (as bs : List Word) : equalWordsFast as bs = true ↔ as = bs := by
  induction as generalizing bs with
  | nil => cases bs <;> simp [equalWordsFast]
  | cons a as ih =>
    cases bs with
    | nil => simp [equalWordsFast]
    | cons b bs => simp [equalWordsFast, ih]

/-- The accumulator of the Uniform equality test stays zero exactly while no difference is met. -/
theorem diffWords_eq_zero_iff (acc : Word) (as bs : List Word) (hlen : as.length = bs.length) :
    diffWords acc as bs = 0#32 ↔ acc = 0#32 ∧ as = bs := by
  induction as generalizing acc bs with
  | nil =>
    cases bs with
    | nil => simp [diffWords]
    | cons b bs => simp at hlen
  | cons a as ih =>
    cases bs with
    | nil => simp at hlen
    | cons b bs =>
      have hlen' : as.length = bs.length := by simpa using hlen
      simp [diffWords, ih _ _ hlen', BitVec.or_eq_zero_iff, BitVec.xor_eq_zero_iff, and_assoc]

/-- The OR of all words is zero exactly when every word is. -/
theorem foldl_or_eq_zero_iff (acc : Word) (as : List Word) :
    as.foldl (· ||| ·) acc = 0#32 ↔ acc = 0#32 ∧ ∀ w ∈ as, w = 0#32 := by
  induction as generalizing acc with
  | nil => simp
  | cons a as ih => simp [ih, BitVec.or_eq_zero_iff, and_assoc]

/-- The equality test of either policy is equality of CAP-bit vectors (41_bitvector.md R100). -/
theorem equalBy_eq (p : TimingPolicy) {c : Curve} {a b : Vec} (ha : a.fits c) (hb : b.fits c) :
    equalBy p c a b = (a == b) := by
  rw [Bool.eq_iff_iff, beq_iff_eq, ← vecWords_eq_iff ha hb]
  cases p with
  | fast => exact equalWordsFast_eq_true_iff _ _
  | uniform =>
    have hlen : (vecWords c a).length = (vecWords c b).length := by simp
    simp [equalBy, diffWords_eq_zero_iff _ _ _ hlen]

/-- The zero test of either policy is equality with ZERO on CAP-bit vectors (41_bitvector.md R100). -/
theorem isZeroBy_eq (p : TimingPolicy) {c : Curve} {a : Vec} (ha : a.fits c) :
    isZeroBy p c a = (a == Vec.ZERO) := by
  rw [Bool.eq_iff_iff, beq_iff_eq, ← vecWords_all_zero_iff ha]
  cases p with
  | fast => simp [isZeroBy]
  | uniform => simp [isZeroBy, foldl_or_eq_zero_iff]

/-! The field and point loops. -/

/-- Adding a value or the zero blinding value is adding it or not. -/
theorem xor_ite_zero (b : Bool) (z t : Vec) :
    (z ^^^ if b then t else Vec.ZERO) = if b then z ^^^ t else z := by
  cases b <;> simp

theorem fmulLoopUniform_eq (c : Curve) (y : Vec) (n i : Nat) (tmp z : Vec) :
    fmulLoopUniform c y n i tmp z = fmulLoop c y n i tmp z := by
  induction n generalizing i tmp z with
  | zero => rfl
  | succ n ih => rw [fmulLoopUniform, fmulLoop, ih, xor_ite_zero]

theorem fmulBy_eq (p : TimingPolicy) (c : Curve) (x y : Vec) : fmulBy p c x y = fmul c x y := by
  cases p with
  | fast => rfl
  | uniform => rw [fmulBy, fmul, fmulLoopUniform_eq, BitVec.zero_xor]

@[simp] theorem isIdentity_O : isIdentity Point.O = true := by
  simp [isIdentity, Point.O]

/-- Adding the identity on the right returns the point and never inverts (43_point.md R134). -/
@[simp] theorem padd_O (c : Curve) (p : Point) : padd c p Point.O = some p := by
  simp [padd]

theorem pmulLoopUniform_eq (c : Curve) (p : Point) (k : Vec) (n : Nat) (acc : Point) :
    pmulLoopUniform c p k n acc = pmulLoop c p k n acc := by
  induction n generalizing acc with
  | zero => rfl
  | succ n ih =>
    rw [pmulLoopUniform, pmulLoop]
    cases pdbl c acc with
    | none => rfl
    | some dbl =>
      dsimp only
      cases k.getLsbD n with
      | false =>
        rw [if_neg Bool.false_ne_true, if_neg Bool.false_ne_true, padd_O]
        exact ih dbl
      | true =>
        rw [if_pos rfl, if_pos rfl]
        cases padd c dbl p with
        | none => rfl
        | some sum => exact ih sum

theorem pmulBy_eq (p : TimingPolicy) (c : Curve) (q : Point) (k : Vec) :
    pmulBy p c q k = pmul c q k := by
  cases p with
  | fast => rfl
  | uniform => exact pmulLoopUniform_eq c q k (deg k) Point.O

/-- Settles O47: each code shape gives the value of the plain function. -/
theorem timingPoliciesAgree : Obligations.TimingPoliciesAgree := by
  intro p c a b q
  exact ⟨fun ha hb => equalBy_eq p ha hb, fun ha => isZeroBy_eq p ha, fmulBy_eq p c a b,
    pmulBy_eq p c q a⟩

end Sys2Proof
end

section
/-! The register block (20_memory.md R60 to R64): the offset of each location, and the location of each offset. -/

namespace Sys2Proof

/-- NWORDS is at most 18 (00_scope.md R14), so that the words of a vector fit its slot of 32 words. -/
theorem Curve.nwords_le (c : Curve) : c.nwords ≤ 18 := by cases c <;> decide

/-- Only the five indices name a constant (10_state.md R53). -/
theorem ConstName.eq_index_of_ofIndex {k : Nat} {n : ConstName} (h : ConstName.ofIndex k = some n) :
    k = n.index := by
  unfold ConstName.ofIndex at h
  split at h <;> cases h <;> rfl

namespace Machine

/-- The offset of a location (20_memory.md R61); `locate_cases` ties it to the map. -/
def Loc.off : Loc → Nat
  | .id => 0x000
  | .cfg => 0x004
  | .ctrl => 0x008
  | .status => 0x00C
  | .cmd => 0x010
  | .res => 0x014
  | .finfo => 0x018
  | .data r w => dataOff r w
  | .const n w => constOff n w

/-- Everything the map answers at an aligned offset: the location gives the offset back, so that no two
offsets share one, and of a register only the NWORDS words are mapped (20_memory.md R61, R62). -/
theorem locate_cases {c : Curve} {off : Nat} {l : Loc} (ha : off % 4 = 0)
    (h : locate c off = some l) : off = l.off ∧ ∀ r w, l = .data r w → w < c.nwords := by
  have hn := c.nwords_le
  unfold locate at h
  dsimp only at h
  split at h
  · split at h <;> cases h <;> exact ⟨rfl, by simp⟩
  · split at h
    · cases h
    · next hw =>
      split at h
      · cases h
        constructor
        · simp only [Loc.off, dataOff, Fin.val_ofNat]
          omega
        · rintro r w ⟨⟩
          exact Nat.lt_of_not_le hw
      · split at h
        · cases h
        · next n hi =>
          cases h
          have hi := ConstName.eq_index_of_ofIndex hi
          refine ⟨?_, by simp⟩
          simp only [Loc.off, constOff]
          omega

/-- The words of the constant window are mapped, in every build (20_memory.md R63). -/
theorem locate_constOff {c : Curve} (n : ConstName) {w : Nat} (hw : w < c.nwords) :
    locate c (constOff n w) = some (.const n w) := by
  have hn := c.nwords_le
  have hword : constOff n w % 0x80 / 4 = w := by unfold constOff; omega
  have hslot : (constOff n w - 0x900) / 0x80 = n.index := by unfold constOff; omega
  have hlow : ¬ constOff n w < 0x900 := by unfold constOff; omega
  have hindex : ConstName.ofIndex n.index = some n := by cases n <;> rfl
  simp only [locate, hword, hslot, hindex, if_neg hlow, if_neg (Nat.not_le.mpr hw),
    if_neg (show ¬ constOff n w < 0x100 by omega)]

/-- An aligned 32-bit access reaches what the map gives. -/
@[simp] theorem access_word (c : Curve) {off : Nat} (ha : off % 4 = 0) :
    access c 32 off = locate c off := if_pos ⟨rfl, ha⟩

/-- Everything an access that reaches a location tells: its width, its offset, and a mapped word. -/
theorem access_cases {c : Curve} {width off : Nat} {l : Loc} (h : access c width off = some l) :
    width = 32 ∧ off = l.off ∧ ∀ r w, l = .data r w → w < c.nwords := by
  unfold access at h
  split at h
  · next hw => exact ⟨hw.1, locate_cases hw.2 h⟩
  · cases h

/-- A word that reads is at a mapped offset, and it is what its location holds. -/
theorem State.readWord_eq_some_iff {s : State} {off : Nat} {v : Word} :
    s.readWord off = some v ↔ off % 4 = 0 ∧ ∃ l, locate s.curve off = some l ∧ s.readLoc l = v := by
  unfold State.readWord
  split
  · next ha => simp [ha]
  · next ha => simp [ha]

theorem State.readWord_of_locate {s : State} {off : Nat} {l : Loc} (ha : off % 4 = 0)
    (h : locate s.curve off = some l) : s.readWord off = some (s.readLoc l) :=
  State.readWord_eq_some_iff.2 ⟨ha, l, h, rfl⟩

theorem hostRead_of_locate {s : State} {off : Nat} {l : Loc} (hb : off < blockSize)
    (ha : off % 4 = 0) (h : locate s.curve off = some l) :
    hostRead 32 off s = .next { s with rdata := some (s.readLoc l) } := by
  simp [hostRead, Nat.not_le.mpr hb, ha, h]

theorem hostWrite_of_locate {s : State} {off : Nat} {l : Loc} (v : Word) (hb : off < blockSize)
    (ha : off % 4 = 0) (h : locate s.curve off = some l) :
    hostWrite 32 off v s = .next { s.writeLoc off v l with rdata := none } := by
  simp [hostWrite, Nat.not_le.mpr hb, ha, h]

/-! The writes to the three control registers that take one, mapped in every build. -/

theorem hostWrite_ctrl (s : State) (v : Word) :
    hostWrite 32 0x008 v s = .next { s.writeLoc 0x008 v .ctrl with rdata := none } :=
  hostWrite_of_locate v (by decide) rfl rfl

theorem hostWrite_status (s : State) (v : Word) :
    hostWrite 32 0x00C v s = .next { s.writeLoc 0x00C v .status with rdata := none } :=
  hostWrite_of_locate v (by decide) rfl rfl

theorem hostWrite_cmd (s : State) (v : Word) :
    hostWrite 32 0x010 v s = .next { s.writeLoc 0x010 v .cmd with rdata := none } :=
  hostWrite_of_locate v (by decide) rfl rfl

/-! What a write to each writable location does (60_exceptions.md R175, step 3). -/

section
variable {s : State} {off : Nat} {v : Word}

theorem State.writeLoc_ctrl_of_srst (hv : srst v = true) : s.writeLoc off v .ctrl = s.engineReset := by
  simp [State.writeLoc, hv]

theorem State.writeLoc_ctrl_of_idle (hv : srst v = false) (hb : s.busy = false) :
    s.writeLoc off v .ctrl = { s with ctrl := Ctrl.ofWord v } := by
  simp [State.writeLoc, hv, hb]

theorem State.writeLoc_ctrl_of_busy (hv : srst v = false) (hb : s.busy = true) :
    s.writeLoc off v .ctrl = s.raiseFault .overrun (zext32 off) := by
  simp [State.writeLoc, hv, hb]

theorem State.writeLoc_status_of_set (hv : v.getLsbD 1 = true) :
    s.writeLoc off v .status = { s with done := false } :=
  if_pos hv

theorem State.writeLoc_status_of_clear (hv : v.getLsbD 1 = false) : s.writeLoc off v .status = s :=
  if_neg (Bool.eq_false_iff.1 hv)

theorem State.writeLoc_cmd_of_err (he : s.err = true) : s.writeLoc off v .cmd = s := by
  simp [State.writeLoc, he]

theorem State.writeLoc_cmd_of_busy (he : s.err = false) (hb : s.busy = true) :
    s.writeLoc off v .cmd = s.raiseFault .overrun (zext32 off) := by
  simp [State.writeLoc, he, hb]

theorem State.writeLoc_cmd_of_idle (he : s.err = false) (hb : s.busy = false) :
    s.writeLoc off v .cmd = s.accept v := by
  simp [State.writeLoc, he, hb]

theorem State.writeLoc_data_of_busy (r : Reg) (w : Nat) (hb : s.busy = true) :
    s.writeLoc off v (.data r w) = s.raiseFault .overrun (zext32 off) := by
  simp [State.writeLoc, hb]

theorem State.writeLoc_data_of_idle (r : Reg) (w : Nat) (hb : s.busy = false) :
    s.writeLoc off v (.data r w) = s.setReg r (setWord (s.reg r) w v) := by
  simp [State.writeLoc, hb]

end

end Machine

end Sys2Proof
end

section
/-! The control block (10_state.md section 3): the layout of its words, what they read and the effect of a write. -/

namespace Sys2Proof.Machine

/-- A flag shows at its place and nowhere else. -/
@[simp] theorem getElem_flagAt (b : Bool) (n i : Nat) (hi : i < 32) :
    (flagAt b n)[i] = (b && decide (i = n)) := by
  cases b with
  | false => simp [flagAt]
  | true =>
    rw [Bool.eq_iff_iff]
    simp [flagAt]
    omega

/-- Settles O29: the record of a read is the only thing it writes. -/
theorem readsHaveNoSideEffect : Obligations.ReadsHaveNoSideEffect := by
  constructor
  · intro s off v hb h
    obtain ⟨ha, l, hl, rfl⟩ := State.readWord_eq_some_iff.1 h
    exact ⟨hostRead_of_locate hb ha hl, hostRead_of_locate hb ha hl⟩
  · intro s
    exact ⟨hostRead_of_locate (l := .cmd) (by decide) rfl rfl,
      hostRead_of_locate (l := .res) (by decide) rfl rfl,
      hostRead_of_locate (l := .finfo) (by decide) rfl rfl⟩

/-- The layout of CTRL (10_state.md R43). -/
theorem Ctrl.word_layout (k : Ctrl) :
    k.word.getLsbD 0 = k.uniform ∧ k.word.getLsbD 1 = k.cofv ∧ k.word.getLsbD 2 = k.ie ∧
      k.word.extractLsb' 3 29 = 0 := by
  refine ⟨?_, ?_, ?_, ?_⟩
  · simp [Ctrl.word]
  · simp [Ctrl.word]
  · simp [Ctrl.word]
  · apply BitVec.eq_of_getLsbD_eq
    intro i hi
    interval_cases i <;> simp [Ctrl.word]

/-- The fault action leaves what the rules say a fault leaves (60_exceptions.md R183). -/
theorem State.raiseFault_faulted (s : State) (code : ECode) (info : Word) :
    Faulted s (s.raiseFault code info) code info :=
  ⟨rfl, rfl, rfl, rfl, rfl, rfl, fun _ => rfl, rfl, rfl, rfl, rfl, rfl, rfl⟩

/-- Settles O35: CTRL's three bits, read at their places and stored from them. -/
theorem ctrlRegisterLayoutAndWrite : Obligations.CtrlRegisterLayoutAndWrite := by
  intro s v
  refine ⟨⟨s.ctrl.word, State.readWord_of_locate (l := .ctrl) rfl rfl, s.ctrl.word_layout⟩, ?_, ?_⟩
  · intro hv hb
    rw [hostWrite_ctrl, State.writeLoc_ctrl_of_idle hv hb]
    rfl
  · intro hv hb
    refine ⟨_, hostWrite_ctrl s v, ?_⟩
    rw [State.writeLoc_ctrl_of_busy hv hb]
    exact { s.raiseFault_faulted .overrun 0x008#32 with }

/-- The layout of STATUS (10_state.md R40). -/
theorem statusWord_layout (s : State) :
    s.statusWord.getLsbD 0 = s.busy ∧ s.statusWord.getLsbD 1 = s.done ∧
      s.statusWord.getLsbD 2 = s.err ∧ s.statusWord.getLsbD 3 = false ∧
      s.statusWord.extractLsb' 4 4 = s.ecode.code ∧ s.statusWord.extractLsb' 8 4 = s.pstat.code ∧
      s.statusWord.extractLsb' 12 20 = 0 := by
  refine ⟨?_, ?_, ?_, ?_, ?_, ?_, ?_⟩
  · simp [State.statusWord]
  · simp [State.statusWord]
  · simp [State.statusWord]
  · simp [State.statusWord]
  · apply BitVec.eq_of_getLsbD_eq
    intro i hi
    interval_cases i <;> simp [State.statusWord]
  · apply BitVec.eq_of_getLsbD_eq
    intro i hi
    interval_cases i <;> simp [State.statusWord]
  · apply BitVec.eq_of_getLsbD_eq
    intro i hi
    interval_cases i <;> simp [State.statusWord]

/-- Settles O34: the layout above, a write's one effect, and a reset that leaves every field 0. -/
theorem statusRegisterLayoutAndWrite : Obligations.StatusRegisterLayoutAndWrite := by
  refine ⟨fun s => ⟨s.statusWord, State.readWord_of_locate (l := .status) rfl rfl,
    statusWord_layout s⟩, fun s v => ⟨fun hv => ?_, fun hv => ?_⟩, fun c => ?_,
    ⟨rfl, rfl, rfl, rfl, rfl, rfl⟩, ⟨rfl, rfl, rfl, rfl, rfl, rfl, rfl⟩⟩
  · rw [hostWrite_status, State.writeLoc_status_of_set hv]
  · rw [hostWrite_status, State.writeLoc_status_of_clear hv]
  · rw [State.readWord_of_locate (l := .status) rfl rfl]
    simp [State.readLoc, State.statusWord, flagAt, ECode.code, PStat.code]

/-- ID holds the signature and m, in every build (10_state.md R41). -/
theorem idWord_layout (c : Curve) :
    ((idWord c).extractLsb' 16 16).toNat = 0x4632 ∧ ((idWord c).extractLsb' 0 16).toNat = c.m := by
  cases c <;> decide

/-- CFG holds the parameters of the build, in every build (10_state.md R42). -/
theorem cfgWord_layout (c : Curve) :
    ((cfgWord c).extractLsb' 0 5).toNat = c.nwords ∧ (cfgWord c).getLsbD 5 = c.aIsOne ∧
      ((cfgWord c).extractLsb' 6 3).toNat = c.cofactor ∧ ((cfgWord c).extractLsb' 9 4).toNat = c.id ∧
      ((cfgWord c).extractLsb' 13 10).toNat = deg c.order ∧ (cfgWord c).extractLsb' 23 9 = 0 := by
  cases c <;> decide +kernel

/-- Settles O36: the two layouts above; the words of K-163 are evaluated. -/
theorem identificationWords : Obligations.IdentificationWords := by
  refine ⟨fun s => ⟨idWord s.curve, cfgWord s.curve, State.readWord_of_locate (l := .id) rfl rfl,
    State.readWord_of_locate (l := .cfg) rfl rfl, ?_⟩, by decide, by decide +kernel⟩
  exact ⟨(idWord_layout _).1, (idWord_layout _).2, cfgWord_layout _⟩

end Sys2Proof.Machine
end

section
/-! The functions on vectors and points keep to the CAP bits of the build (00_scope.md R21, 10_state.md R31). -/

namespace Sys2Proof

namespace Vec

theorem fits_one (c : Curve) : Vec.fits c Vec.ONE := by
  cases c <;> decide +kernel

theorem fits_ite {c : Curve} {p : Prop} [Decidable p] {a b : Vec} (ha : a.fits c) (hb : b.fits c) :
    Vec.fits c (if p then a else b) := by
  split
  · exact ha
  · exact hb

theorem fits_vecA (c : Curve) : c.vecA.fits c := fits_ite (fits_one c) (fits_zero c)

theorem fits_clearBit {c : Curve} {v : Vec} (hv : v.fits c) (i : Nat) : (clearBit v i).fits c :=
  fits_and_left hv

theorem fits_maskN {c : Curve} {v : Vec} (hv : v.fits c) : (maskN c v).fits c := fits_and_left hv

/-- A mapped word lies below CAP, so that writing it keeps to the build (20_memory.md R62). -/
theorem fits_setWord {c : Curve} {v : Vec} (hv : v.fits c) {w : Nat} (hw : w < c.nwords) (x : Word) :
    (setWord v w x).fits c := by
  rw [Vec.fits_iff] at *
  intro i hi
  have hcap : 32 * w + 32 ≤ i := by
    have : c.cap = 32 * c.nwords := rfl
    omega
  have hx : x.getLsbD (i - 32 * w) = false := BitVec.getLsbD_of_ge _ _ (by omega)
  simp [setWord, hv i hi, hx]

/-! The field functions (42_field.md). -/

theorem fits_xtime (c : Curve) (v : Vec) : (xtime c v).fits c :=
  fits_ite (fits_xor (fits_lshift c v 1) (fits_const c .poly)) (fits_lshift c v 1)

theorem fits_fmulLoop {c : Curve} (y : Vec) (n i : Nat) (tmp : Vec) {z : Vec} (hz : z.fits c) :
    (fmulLoop c y n i tmp z).fits c := by
  induction n generalizing i tmp z with
  | zero => exact hz
  | succ n ih => exact ih _ _ (fits_ite (fits_xor hz (fits_xtime c tmp)) hz)

theorem fits_fmul {c : Curve} {x : Vec} (hx : x.fits c) (y : Vec) : (fmul c x y).fits c :=
  fits_fmulLoop y _ _ _ (fits_ite hx (fits_zero c))

theorem fits_finvLoop {c : Curve} {fuel : Nat} {u v g z r : Vec} (hg : g.fits c) (hz : z.fits c)
    (h : finvLoop c fuel u v g z = some r) : r.fits c := by
  induction fuel generalizing u v g z with
  | zero => cases h
  | succ fuel ih =>
    unfold finvLoop at h
    split at h
    · cases h
      exact hz
    · split at h
      · cases h
      · split at h
        · exact ih hz (fits_xor hg (fits_lshift c z _)) h
        · exact ih hg (fits_xor hz (fits_lshift c g _)) h

theorem fits_finv {c : Curve} {x r : Vec} (h : finv c x = some r) : r.fits c :=
  fits_finvLoop (fits_zero c) (fits_one c) h

theorem fits_fredLoop {c : Curve} (fuel : Nat) {v : Vec} (hv : v.fits c) :
    (fredLoop c fuel v).fits c := by
  induction fuel generalizing v with
  | zero => exact hv
  | succ fuel ih =>
    unfold fredLoop
    split
    · exact ih (fits_xor hv (fits_lshift c _ _))
    · exact hv

theorem fits_fred {c : Curve} {v : Vec} (hv : v.fits c) : (fred c v).fits c := fits_fredLoop _ hv

end Vec

/-! The point functions (43_point.md, 44_protocol.md). -/

/-- Both coordinates are CAP-bit vectors of the build. -/
structure Point.Fits (c : Curve) (p : Point) : Prop where
  x : p.x.fits c
  y : p.y.fits c

namespace Point.Fits

variable {c : Curve} {p q r : Point}

theorem O (c : Curve) : Point.O.Fits c := ⟨Vec.fits_zero c, Vec.fits_zero c⟩

theorem basePoint (c : Curve) : c.basePoint.Fits c := ⟨Vec.fits_const c .gx, Vec.fits_const c .gy⟩

theorem pdbl (hp : p.Fits c) (h : pdbl c p = some r) : r.Fits c := by
  unfold Sys2Proof.pdbl at h
  split at h
  · cases h
    exact O c
  · split at h
    · cases h
    · next xi hxi =>
      cases h
      have hl : (fmul c xi p.y ^^^ p.x).fits c :=
        Vec.fits_xor (Vec.fits_fmul (Vec.fits_finv hxi) _) hp.x
      exact ⟨Vec.fits_xor (Vec.fits_xor (Vec.fits_fmul hl _) hl) (Vec.fits_vecA c),
        Vec.fits_xor (Vec.fits_fmul hp.x _) (Vec.fits_fmul (Vec.fits_xor hl (Vec.fits_one c)) _)⟩

theorem paddChord (hp : p.Fits c) (hq : q.Fits c) (h : paddChord c p q = some r) : r.Fits c := by
  unfold Sys2Proof.paddChord at h
  dsimp only at h
  split at h
  · cases h
  · next bi hbi =>
    cases h
    have hk : (fmul c bi (p.y ^^^ q.y)).fits c := Vec.fits_fmul (Vec.fits_finv hbi) _
    have hd := Vec.fits_xor (Vec.fits_xor (Vec.fits_xor (Vec.fits_fmul hk (fmul c bi (p.y ^^^ q.y))) hk)
      (Vec.fits_xor hp.x hq.x)) (Vec.fits_vecA c)
    exact ⟨hd, Vec.fits_xor hp.y (Vec.fits_xor (Vec.fits_fmul (Vec.fits_xor hp.x hd) _) hd)⟩

theorem padd (hp : p.Fits c) (hq : q.Fits c) (h : padd c p q = some r) : r.Fits c := by
  unfold Sys2Proof.padd at h
  split at h
  · cases h
    exact hp
  · split at h
    · cases h
      exact hq
    · split at h
      · split at h
        · exact hp.pdbl h
        · cases h
          exact O c
      · exact hp.paddChord hq h

theorem pmulLoop {k : Vec} {n : Nat} (hp : p.Fits c) (hq : q.Fits c)
    (h : pmulLoop c p k n q = some r) : r.Fits c := by
  induction n generalizing q with
  | zero =>
    cases h
    exact hq
  | succ n ih =>
    unfold Sys2Proof.pmulLoop at h
    split at h
    · cases h
    · next d hd =>
      have hdbl := hq.pdbl hd
      split at h
      · split at h
        · cases h
        · next a ha => exact ih (hdbl.padd hp ha) h
      · exact ih hdbl h

theorem pmul {k : Vec} (hp : p.Fits c) (h : pmul c p k = some r) : r.Fits c := hp.pmulLoop (O c) h

theorem doublings {n : Nat} (hp : p.Fits c) (h : doublings c n p = some r) : r.Fits c := by
  induction n generalizing p with
  | zero =>
    cases h
    exact hp
  | succ n ih =>
    unfold Sys2Proof.doublings at h
    split at h
    · cases h
    · next d hd => exact ih (hp.pdbl hd) h

theorem sharedSecret {cofv : Bool} {k : Vec} (hp : p.Fits c)
    (h : sharedSecret c cofv k p = some r) : r.Fits c := by
  unfold Sys2Proof.sharedSecret at h
  split at h
  · cases h
  · next m hm =>
    split at h
    · exact (hp.pmul hm).doublings h
    · cases h
      exact hp.pmul hm

end Point.Fits

theorem Vec.fits_signS {c : Curve} {d k z r s : Vec} (h : signS c d k z r = some s) : s.fits c := by
  unfold signS at h
  split at h
  · cases h
  · next ki hki =>
    cases h
    exact Vec.fits_fmul (Vec.fits_finv hki) _

end Sys2Proof
end

section
/-! What a command leaves to be committed: the form of its results and the registers it names (10_state.md R47,
R48; 44_protocol.md R160), and that the values it writes keep to the build. -/

namespace Sys2Proof.Machine

/-! The protocol commands, each answer they can give. -/

theorem keygenResult_cases {c : Curve} {pd : Pair} {rpriv : Reg} {p : Vec} {r : CmdResult}
    (h : keygenResult c pd rpriv p = some r) :
    r = .failed .weakPrivateKey ∨ ∃ q, pmul c c.basePoint (maskN c p) = some q ∧
      r = .success ((rpriv, maskN c p) :: pairWrites pd q) := by
  unfold keygenResult at h
  split at h
  · cases h
    exact .inl rfl
  · split at h
    · cases h
    · next q hq =>
      cases h
      exact .inr ⟨q, hq, rfl⟩

theorem ecdhResult_cases {c : Curve} {cofv : Bool} {pd : Pair} {priv : Vec} {q : Point}
    {r : CmdResult} (h : ecdhResult c cofv pd priv q = some r) :
    r = .failed .invalidPeerPublicKey ∨ ∃ p, sharedSecret c cofv priv q = some p ∧
      r = .success (pairWrites pd p) := by
  unfold ecdhResult at h
  split at h
  · split at h
    · cases h
    · next p hp =>
      cases h
      exact .inr ⟨p, hp, rfl⟩
  · cases h
    exact .inl rfl

/-- SIGN fails without a write, writes the identity for r = 0, or writes (r, s). -/
theorem signResult_cases {c : Curve} {pd : Pair} {d dig k : Vec} {r : CmdResult}
    (h : signResult c pd d dig k = some r) :
    (∃ why, r = .failed why) ∨ r = ⟨pairWrites pd Point.O, some 0, .degenerateSignature⟩ ∨
      ∃ q t res why, pmul c c.basePoint k = some q ∧ signS c d k (maskN c dig) q.x = some t ∧
        r = ⟨pairWrites pd ⟨q.x, t⟩, some res, why⟩ := by
  unfold signResult at h
  split at h
  · cases h
    exact .inl ⟨_, rfl⟩
  · split at h
    · cases h
      exact .inl ⟨_, rfl⟩
    · split at h
      · cases h
      · next q hq =>
        split at h
        · cases h
          exact .inr (.inl rfl)
        · split at h
          · cases h
          · next t ht =>
            split at h
            · next hzero =>
              cases h
              exact .inr (.inr ⟨q, t, 0, .degenerateSignature, hq, ht, by rw [hzero]⟩)
            · cases h
              exact .inr (.inr ⟨q, t, 1, .ok, hq, ht, rfl⟩)

theorem verifyResult_cases {c : Curve} {q sg : Point} {dig : Vec} {r : CmdResult}
    (h : verifyResult c q dig sg = some r) : r = .success [] ∨ ∃ why, r = .failed why := by
  unfold verifyResult at h
  split at h
  · cases h
    exact .inr ⟨_, rfl⟩
  · split at h
    · cases h
    · split at h
      · cases h
      · split at h
        · cases h
          exact .inl rfl
        · cases h
          exact .inr ⟨_, rfl⟩

/-! The form of a command's results. -/

/-- The results `r` have the form the rules give the command `i`: they name no register outside its
destinations, they hold RES exactly for the eleven commands of R47, and PSTAT is OK below opcode 0x30
(10_state.md R48). `cmdResult_wellShaped` ties it to every command. -/
structure CmdResult.WellShaped (i : Instr) (r : CmdResult) : Prop where
  dests : ∀ w ∈ r.writes, w.1 ∈ dests i
  res : r.res.isSome = writesRes i
  pstat : (opField (encode i)).toNat < 0x30 → r.pstat = .ok

namespace CmdResult.WellShaped

variable {i : Instr}

/-- A command that writes one value to each of its destinations, and nothing else. -/
theorem regs {ws : List (Reg × Vec)} (hres : writesRes i = false)
    (hws : ws.map Prod.fst = Machine.dests i) : WellShaped i (.regs ws) where
  dests _ hw := hws ▸ List.mem_map_of_mem hw
  res := hres.symm
  pstat _ := rfl

theorem scalar {v : Word} (hres : writesRes i = true) : WellShaped i (.scalar v) where
  dests _ hw := by cases hw
  res := hres.symm
  pstat _ := rfl

/-- A protocol command: RES is written whatever the outcome, and PSTAT is free. -/
theorem protocol {ws : List (Reg × Vec)} {v : Word} {why : PStat}
    (hop : ¬ (opField (encode i)).toNat < 0x30) (hres : writesRes i = true)
    (hws : ws.map Prod.fst ⊆ Machine.dests i) : WellShaped i ⟨ws, some v, why⟩ where
  dests _ hw := hws (List.mem_map_of_mem hw)
  res := hres.symm
  pstat h := absurd h hop

end CmdResult.WellShaped

theorem cmdResult_wellShaped {i : Instr} {c : Curve} {cofv : Bool} {opd : Reg → Vec} {r : CmdResult}
    (h : cmdResult i c cofv opd = some r) : r.WellShaped i := by
  cases i with
  | nop | clrbit | copy | swap | setzero | lshift | ldc | fsetone | fadd | finc | fmul | fred | pcopy =>
    cases h
    exact .regs rfl rfl
  | getbit | equal | iszero | degree | fisone | piszero | poncurve =>
    cases h
    exact .scalar rfl
  | finv | pdbl | padd | pmul =>
    obtain ⟨_, _, rfl⟩ := Option.map_eq_some_iff.1 h
    exact .regs rfl rfl
  | keygen pd rpriv =>
    have hop : ¬ (opField (encode (.keygen pd rpriv))).toNat < 0x30 := by simp [encode]
    rcases keygenResult_cases h with rfl | ⟨q, _, rfl⟩
    · exact .protocol hop rfl (List.nil_subset _)
    · exact .protocol hop rfl (List.Subset.refl _)
  | ecdh pd rpriv ppeer =>
    have hop : ¬ (opField (encode (.ecdh pd rpriv ppeer))).toNat < 0x30 := by simp [encode]
    rcases ecdhResult_cases h with rfl | ⟨p, _, rfl⟩
    · exact .protocol hop rfl (List.nil_subset _)
    · exact .protocol hop rfl (List.Subset.refl _)
  | sign pd rpriv rdig rnonce =>
    have hop : ¬ (opField (encode (.sign pd rpriv rdig rnonce))).toNat < 0x30 := by simp [encode]
    rcases signResult_cases h with ⟨why, rfl⟩ | rfl | ⟨q, t, res, why, _, _, rfl⟩
    · exact .protocol hop rfl (List.nil_subset _)
    · exact .protocol hop rfl (List.Subset.refl _)
    · exact .protocol hop rfl (List.Subset.refl _)
  | verify ppub rdig psig =>
    have hop : ¬ (opField (encode (.verify ppub rdig psig))).toNat < 0x30 := by simp [encode]
    rcases verifyResult_cases h with rfl | ⟨why, rfl⟩
    · exact .protocol hop rfl (List.nil_subset _)
    · exact .protocol hop rfl (List.nil_subset _)

/-! The values a command writes. -/

/-- Every value the results write is a CAP-bit vector of the build. -/
def CmdResult.Fits (c : Curve) (r : CmdResult) : Prop := ∀ w ∈ r.writes, w.2.fits c

namespace CmdResult.Fits

variable {c : Curve} {res : Option Word} {why : PStat}

theorem nil : Fits c ⟨[], res, why⟩ := fun _ hw => by cases hw

theorem cons {r : Reg} {v : Vec} {ws : List (Reg × Vec)} (hv : v.fits c) (h : Fits c ⟨ws, res, why⟩) :
    Fits c ⟨(r, v) :: ws, res, why⟩ :=
  List.forall_mem_cons.2 ⟨hv, h⟩

theorem pairWrites (pd : Pair) {q : Point} (hq : q.Fits c) :
    Fits c ⟨pairWrites pd q, res, why⟩ :=
  cons hq.x (cons hq.y nil)

end CmdResult.Fits

/-- A command on CAP-bit operands writes CAP-bit vectors (10_state.md R31). -/
theorem cmdResult_fits {i : Instr} {c : Curve} {cofv : Bool} {opd : Reg → Vec} {r : CmdResult}
    (hopd : ∀ q, (opd q).fits c) (h : cmdResult i c cofv opd = some r) : r.Fits c := by
  have hpoint (p : Pair) : (operandPoint opd p).Fits c := ⟨hopd _, hopd _⟩
  have hbase := Point.Fits.basePoint c
  cases i with
  | nop | getbit | equal | iszero | degree | fisone | piszero | poncurve =>
    cases h
    exact .nil
  | clrbit rd imm =>
    cases h
    exact .cons (Vec.fits_clearBit (hopd rd) _) .nil
  | copy rd rs1 =>
    cases h
    exact .cons (hopd rs1) .nil
  | swap rd rs1 =>
    cases h
    exact .cons (hopd rs1) (.cons (hopd rd) .nil)
  | setzero rd =>
    cases h
    exact .cons (Vec.fits_zero c) .nil
  | lshift rd rs1 imm =>
    cases h
    exact .cons (Vec.fits_lshift c _ _) .nil
  | ldc rd n =>
    cases h
    exact .cons (Vec.fits_const c n) .nil
  | fsetone rd =>
    cases h
    exact .cons (Vec.fits_one c) .nil
  | fadd rd rs1 rs2 =>
    cases h
    exact .cons (Vec.fits_xor (hopd rs1) (hopd rs2)) .nil
  | finc rd =>
    cases h
    exact .cons (Vec.fits_xor (hopd rd) (Vec.fits_one c)) .nil
  | fmul rd rs1 rs2 =>
    cases h
    exact .cons (Vec.fits_fmul (hopd rs1) _) .nil
  | finv rd rs1 =>
    obtain ⟨v, hv, rfl⟩ := Option.map_eq_some_iff.1 h
    exact .cons (Vec.fits_finv hv) .nil
  | fred rd rs1 =>
    cases h
    exact .cons (Vec.fits_fred (hopd rs1)) .nil
  | pcopy pd ps =>
    cases h
    exact .pairWrites pd (hpoint ps)
  | pdbl pd =>
    obtain ⟨q, hq, rfl⟩ := Option.map_eq_some_iff.1 h
    exact .pairWrites pd ((hpoint pd).pdbl hq)
  | padd pd ps =>
    obtain ⟨q, hq, rfl⟩ := Option.map_eq_some_iff.1 h
    exact .pairWrites pd ((hpoint pd).padd (hpoint ps) hq)
  | pmul pd rk =>
    obtain ⟨q, hq, rfl⟩ := Option.map_eq_some_iff.1 h
    exact .pairWrites pd ((hpoint pd).pmul hq)
  | keygen pd rpriv =>
    rcases keygenResult_cases h with rfl | ⟨q, hq, rfl⟩
    · exact .nil
    · exact .cons (Vec.fits_maskN (hopd rpriv)) (.pairWrites pd (hbase.pmul hq))
  | ecdh pd rpriv ppeer =>
    rcases ecdhResult_cases h with rfl | ⟨p, hp, rfl⟩
    · exact .nil
    · exact .pairWrites pd ((hpoint ppeer).sharedSecret hp)
  | sign pd rpriv rdig rnonce =>
    rcases signResult_cases h with ⟨why, rfl⟩ | rfl | ⟨q, t, res, why, hq, ht, rfl⟩
    · exact .nil
    · exact .pairWrites pd (Point.Fits.O c)
    · exact .pairWrites pd ⟨(hbase.pmul hq).x, Vec.fits_signS ht⟩
  | verify ppub rdig psig =>
    rcases verifyResult_cases h with rfl | ⟨why, rfl⟩
    · exact .nil
    · exact .nil

end Sys2Proof.Machine
end

section
/-! What a step can do, once (20_memory.md R73): the effects a step has on the engine's state, each with the input
it needs and the condition it stands under. What a step keeps is read off this list. -/

namespace Sys2Proof.Machine

/-- The effects a step can have on a state whose next input is `e`, the record `rdata` aside (log 3).
`transition_of_step` ties it to the step. -/
inductive Transition (s : State) : Option Input → State → Prop
  /-- A read, an ignored write, or the own step of an engine that is not BUSY. -/
  | stay (e : Option Input) : Transition s e s
  /-- The pending command completes (60_exceptions.md R178). -/
  | complete (e : Option Input) {p : Pending} {i : Instr} {r : CmdResult} (busy : s.busy = true)
      (pending : s.pending = some p) (legal : verdict s.curve p.word = .legal i)
      (result : cmdResult i s.curve s.ctrl.cofv s.opd = some r) : Transition s e (s.commit r)
  /-- A fault of an access or of the pending command (60_exceptions.md R183). -/
  | fault (e : Option Input) (code : ECode) (info : Word) (isFault : code ≠ .none) :
      Transition s e (s.raiseFault code info)
  | hardReset : Transition s (some .hardReset) s.engineReset
  | softReset (v : Word) (hv : srst v = true) :
      Transition s (some (.write 32 0x008 v)) s.engineReset
  | writeCtrl (v : Word) (hv : srst v = false) (notBusy : s.busy = false) :
      Transition s (some (.write 32 0x008 v)) { s with ctrl := Ctrl.ofWord v }
  | clearDone (e : Option Input) : Transition s e { s with done := false }
  | accept (v : Word) (notErr : s.err = false) (notBusy : s.busy = false) :
      Transition s (some (.write 32 0x010 v)) (s.accept v)
  | writeData (e : Option Input) (r : Reg) (w : Nat) (v : Word) (notBusy : s.busy = false)
      (mapped : w < s.curve.nwords) : Transition s e (s.setReg r (setWord (s.reg r) w v))

theorem transition_of_engineStep {s t : State} (e : Option Input) (h : engineStep s = .next t) :
    Transition s e t := by
  rcases engineStep_cases s with ⟨_, hs⟩ | ⟨_, _, hs⟩ | ⟨p, i, hb, hp, hl, hs⟩ | ⟨_, _, _, _, hs⟩
  · cases hs.symm.trans h
    exact .stay e
  · cases hs.symm.trans h
  · rw [hs, exec_eq_finish] at h
    rcases State.finish_cases h with ⟨r, hr, rfl⟩ | ⟨_, rfl⟩
    · exact .complete e hb hp hl hr
    · exact .fault e _ _ (by decide)
  · cases hs.symm.trans h

theorem transition_of_hostRead {s t : State} {width off : Nat} (e : Option Input)
    (h : hostRead width off s = .next t) :
    ∃ u rd, Transition s e u ∧ t = { u with rdata := rd } := by
  rcases hostRead_cases width off s with ⟨_, hs⟩ | ⟨_, _, hs⟩ | ⟨l, _, _, hs⟩
  · cases hs.symm.trans h
  · cases hs.symm.trans h
    exact ⟨_, some 0, .fault e .bus (zext32 off) (by decide), rfl⟩
  · cases hs.symm.trans h
    exact ⟨s, _, .stay e, rfl⟩

/-- What a write to a mapped location does (60_exceptions.md R175, step 3). -/
theorem transition_of_writeLoc {s : State} (v : Word) {l : Loc}
    (hl : ∀ r w, l = .data r w → w < s.curve.nwords) :
    Transition s (some (.write 32 l.off v)) (s.writeLoc l.off v l) := by
  have overrun : Transition s (some (.write 32 l.off v)) (s.raiseFault .overrun (zext32 l.off)) :=
    .fault _ _ _ (by decide)
  have bus : Transition s (some (.write 32 l.off v)) (s.raiseFault .bus (zext32 l.off)) :=
    .fault _ _ _ (by decide)
  cases l with
  | id | cfg | res | finfo | const => exact bus
  | ctrl =>
    cases hr : srst v with
    | true =>
      rw [State.writeLoc_ctrl_of_srst hr]
      exact .softReset v hr
    | false =>
      cases hb : s.busy with
      | true => rwa [State.writeLoc_ctrl_of_busy hr hb]
      | false =>
        rw [State.writeLoc_ctrl_of_idle hr hb]
        exact .writeCtrl v hr hb
  | status =>
    cases hv : v.getLsbD 1 with
    | true =>
      rw [State.writeLoc_status_of_set hv]
      exact .clearDone _
    | false =>
      rw [State.writeLoc_status_of_clear hv]
      exact .stay _
  | cmd =>
    cases he : s.err with
    | true =>
      rw [State.writeLoc_cmd_of_err he]
      exact .stay _
    | false =>
      cases hb : s.busy with
      | true => rwa [State.writeLoc_cmd_of_busy he hb]
      | false =>
        rw [State.writeLoc_cmd_of_idle he hb]
        exact .accept v he hb
  | data r w =>
    cases hb : s.busy with
    | true => rwa [State.writeLoc_data_of_busy r w hb]
    | false =>
      rw [State.writeLoc_data_of_idle r w hb]
      exact .writeData _ r w v hb (hl r w rfl)

theorem transition_of_hostWrite {s t : State} {width off : Nat} {v : Word}
    (h : hostWrite width off v s = .next t) :
    ∃ u rd, Transition s (some (.write width off v)) u ∧ t = { u with rdata := rd } := by
  rcases hostWrite_cases width off v s with ⟨_, hs⟩ | ⟨_, _, hs⟩ | ⟨l, _, hl, hs⟩
  · cases hs.symm.trans h
  · cases hs.symm.trans h
    exact ⟨_, none, .fault _ .bus (zext32 off) (by decide), rfl⟩
  · cases hs.symm.trans h
    obtain ⟨rfl, rfl, hw⟩ := access_cases hl
    exact ⟨_, none, transition_of_writeLoc v hw, rfl⟩

theorem transition_of_deliver {s t : State} {e : Input} (h : deliver e s = .next t) :
    ∃ u rd, Transition s (some e) u ∧ t = { u with rdata := rd } := by
  cases e with
  | read width off => exact transition_of_hostRead _ h
  | write width off v => exact transition_of_hostWrite h
  | engineStep => exact ⟨t, t.rdata, transition_of_engineStep _ h, rfl⟩
  | hardReset =>
    cases h
    exact ⟨_, none, .hardReset, rfl⟩

/-- Every step takes its input off the list, has one of the effects of `Transition`, and sets `rdata`. -/
theorem transition_of_step {s t : State} (h : step s = .next t) :
    ∃ u rd, Transition { s with inputs := s.inputs.tail } s.inputs.head? u ∧
      t = { u with rdata := rd } := by
  rcases step_cases s with ⟨hi, hs⟩ | ⟨e, rest, hi, hs⟩
  · have hsame : { s with inputs := s.inputs.tail } = s := by rw [hi, List.tail_nil, ← hi]
    rw [hsame]
    exact ⟨t, t.rdata, transition_of_engineStep _ (hs ▸ h), rfl⟩
  · rw [hi]
    exact transition_of_deliver (hs ▸ h)

/-- Acceptance keeps the build (60_exceptions.md R177). -/
@[simp] theorem State.accept_curve (s : State) (w : Word) : (s.accept w).curve = s.curve := by
  rcases s.accept_cases w with ⟨_, h⟩ | ⟨_, h⟩ | ⟨_, _, h⟩ <;> rw [h] <;> rfl

/-- Acceptance keeps CTRL (60_exceptions.md R177). -/
@[simp] theorem State.accept_ctrl (s : State) (w : Word) : (s.accept w).ctrl = s.ctrl := by
  rcases s.accept_cases w with ⟨_, h⟩ | ⟨_, h⟩ | ⟨_, _, h⟩ <;> rw [h] <;> rfl

/-- No effect of a step changes the build (10_state.md R51). -/
theorem Transition.curve_eq {s t : State} {e : Option Input} (h : Transition s e t) :
    t.curve = s.curve := by
  cases h with
  | complete => exact State.commit_curve s _
  | accept => exact State.accept_curve s _
  | _ => rfl

/-- Only a reset clears ERR (60_exceptions.md R179). -/
theorem Transition.err_of_err {s t : State} {e : Option Input} (h : Transition s e t)
    (herr : s.err = true) :
    t.err = true ∨ e = some .hardReset ∨ ∃ v, srst v = true ∧ e = some (.write 32 0x008 v) := by
  cases h with
  | hardReset => exact .inr (.inl rfl)
  | softReset v hv => exact .inr (.inr ⟨v, hv, rfl⟩)
  | complete => exact .inl ((State.commit_err s _).trans herr)
  | fault => exact .inl rfl
  | accept v notErr => simp [herr] at notErr
  | stay | writeCtrl | clearDone | writeData => exact .inl herr

/-- CTRL is changed by a reset and by a CTRL write only (10_state.md R43). -/
theorem Transition.ctrl_eq {s t : State} {e : Option Input} (h : Transition s e t) :
    t.ctrl = s.ctrl ∨ e = some .hardReset ∨
      ∃ v, e = some (.write 32 0x008 v) ∧ (srst v = true ∨ t.ctrl = Ctrl.ofWord v) := by
  cases h with
  | hardReset => exact .inr (.inl rfl)
  | softReset v hv => exact .inr (.inr ⟨v, rfl, .inl hv⟩)
  | writeCtrl v => exact .inr (.inr ⟨v, rfl, .inr rfl⟩)
  | complete => exact .inl (State.commit_ctrl s _)
  | accept => exact .inl (State.accept_ctrl s _)
  | stay | fault | clearDone | writeData => exact .inl rfl

/-- Settles O15: of the effects of a step, only a reset clears ERR; and a CMD write in ERROR is ignored. -/
theorem errorIsLeftOnlyByReset : Obligations.ErrorIsLeftOnlyByReset := by
  constructor
  · intro s t herr hstep
    obtain ⟨u, rd, hu, rfl⟩ := transition_of_step hstep
    exact hu.err_of_err herr
  · intro s w herr
    rw [hostWrite_cmd, State.writeLoc_cmd_of_err herr]

/-- Settles O24: no effect of a step changes the build, and the constant window shows the build's constants. -/
theorem curveParametersNeverChange : Obligations.CurveParametersNeverChange := by
  intro s t hstep
  obtain ⟨u, rd, hu, rfl⟩ := transition_of_step hstep
  have hc : u.curve = s.curve := hu.curve_eq
  refine ⟨hc, fun n w hw => ?_⟩
  have haligned : constOff n w % 4 = 0 := by unfold constOff; omega
  rw [State.readWord_of_locate haligned (locate_constOff n hw),
    State.readWord_of_locate haligned (locate_constOff n (by rw [hc]; exact hw))]
  simp only [State.readLoc, hc]

theorem State.irq_iff (s : State) :
    s.irq = true ↔ s.ctrl.ie = true ∧ (s.done = true ∨ s.err = true) := by
  simp [State.irq]

/-- With DONE and ERR both 0 there is no interrupt (10_state.md R49). -/
theorem State.irq_of_not_done_not_err {s : State} (hd : s.done = false) (he : s.err = false) :
    s.irq = false := by
  simp [State.irq, hd, he]

/-- Settles O37: in ERROR the interrupt goes only with ERR (a reset) or with IE (a reset or a CTRL write). -/
theorem interruptOutput : Obligations.InterruptOutput := by
  refine ⟨State.irq_iff, ?_, ?_, ?_⟩
  · intro s t v hv herr h
    rw [hostWrite_status,
      State.writeLoc_status_of_set hv] at h
    cases h
    exact State.irq_of_not_done_not_err rfl herr
  · intro s t w i herr hbusy hlegal h
    rw [hostWrite_cmd,
      State.writeLoc_cmd_of_idle herr hbusy] at h
    cases h
    rcases s.accept_cases w with ⟨hv, _⟩ | ⟨hv, _⟩ | ⟨_, _, ha⟩
    · cases hv.symm.trans hlegal
    · cases hv.symm.trans hlegal
    · rw [ha]
      exact State.irq_of_not_done_not_err rfl herr
  · intro s t herr hirq hstep
    obtain ⟨u, rd, hu, rfl⟩ := transition_of_step hstep
    have hie := ((State.irq_iff s).1 hirq).1
    rcases hu.err_of_err herr with he | hr | ⟨v, hv, hin⟩
    · rcases hu.ctrl_eq with hk | hr | ⟨v, hin, hv | hk⟩
      · refine .inl ((State.irq_iff _).2 ⟨?_, .inr he⟩)
        rw [← hie]
        exact congrArg Ctrl.ie hk
      · exact .inr (.inl hr)
      · exact .inr (.inr ⟨v, hin, .inl hv⟩)
      · cases hv : v.getLsbD 2 with
        | true =>
          refine .inl ((State.irq_iff _).2 ⟨?_, .inr he⟩)
          rw [← hv]
          exact congrArg Ctrl.ie hk
        | false => exact .inr (.inr ⟨v, hin, .inr hv⟩)
    · exact .inr (.inl hr)
    · exact .inr (.inr ⟨v, hin, .inl hv⟩)

end Sys2Proof.Machine
end

section
/-! The end of a command and the registers of 10_state.md: the frame, RES and PSTAT. -/

namespace Sys2Proof.Machine

/-- The two ends of a command (60_exceptions.md R172): its results committed, or NOT_INVERTIBLE. -/
theorem exec_cases {i : Instr} {s t : State} (h : exec i s = .next t) :
    (∃ r, cmdResult i s.curve s.ctrl.cofv s.opd = some r ∧ r.WellShaped i ∧ t = s.commit r) ∨
      (cmdResult i s.curve s.ctrl.cofv s.opd = none ∧
        t = s.raiseFault .notInvertible s.cmdWord) := by
  rw [exec_eq_finish] at h
  rcases State.finish_cases h with ⟨r, hr, rfl⟩ | ⟨hr, rfl⟩
  · exact .inl ⟨r, hr, cmdResult_wellShaped hr, rfl⟩
  · exact .inr ⟨hr, rfl⟩

/-- A command with results completes, whatever its state holds beside the operands. -/
theorem exec_of_cmdResult {i : Instr} {s : State} {r : CmdResult}
    (h : cmdResult i s.curve s.ctrl.cofv s.opd = some r) : exec i s = .next (s.commit r) := by
  rw [exec_eq_finish, h, State.finish_some]

/-- A command leaves every register outside its destinations alone (60_exceptions.md R174, R178). -/
theorem exec_reg {i : Instr} {s t : State} (h : exec i s = .next t) {q : Reg} (hq : q ∉ dests i) :
    t.reg q = s.reg q := by
  rcases exec_cases h with ⟨r, _, hshape, rfl⟩ | ⟨_, rfl⟩
  · exact State.reg_setRegs_of_notMem s r.writes q fun w hw hwq => hq (hwq ▸ hshape.dests w hw)
  · rfl

/-- A command outside the eleven of R47 leaves RES alone. -/
theorem exec_res {i : Instr} {s t : State} (h : exec i s = .next t) (hi : writesRes i = false) :
    t.res = s.res := by
  rcases exec_cases h with ⟨r, _, hshape, rfl⟩ | ⟨_, rfl⟩
  · have hnone : r.res = none :=
      Option.not_isSome_iff_eq_none.1 (by simp [hshape.res, hi])
    rw [State.commit_res, hnone, Option.getD_none]
  · rfl

/-- No command writes CMD, CTRL, the build or the inputs. -/
theorem exec_frame {i : Instr} {s t : State} (h : exec i s = .next t) :
    t.cmd = s.cmd ∧ t.ctrl = s.ctrl ∧ t.curve = s.curve ∧ t.inputs = s.inputs := by
  rcases exec_cases h with ⟨r, _, _, rfl⟩ | ⟨_, rfl⟩
  · simp
  · simp

/-- Two states of one build with the same CTRL and CMD show the same word at every offset but STATUS, RES and
FINFO, if the register the offset lies in is the same. -/
theorem State.readWord_congr {s t : State} {off : Nat} (hcmd : t.cmd = s.cmd) (hctrl : t.ctrl = s.ctrl)
    (hcurve : t.curve = s.curve)
    (hreg : ∀ r w, w < s.curve.nwords → off = dataOff r w → t.reg r = s.reg r)
    (hstatus : off ≠ 0x00C) (hres : off ≠ 0x014) (hfinfo : off ≠ 0x018) :
    t.readWord off = s.readWord off := by
  unfold State.readWord
  split
  · next ha =>
    rw [hcurve]
    refine Option.map_congr fun l hl => ?_
    obtain ⟨hoff, hw⟩ := locate_cases ha hl
    cases l with
    | id => exact congrArg idWord hcurve
    | cfg => exact congrArg cfgWord hcurve
    | ctrl => exact congrArg Ctrl.word hctrl
    | status => exact absurd hoff hstatus
    | cmd => exact hcmd
    | res => exact absurd hoff hres
    | finfo => exact absurd hoff hfinfo
    | data r w => exact congrArg (getWord · w) (hreg r w (hw r w rfl) hoff)
    | const n w => exact congrArg (fun c => getWord (Curve.const c n) w) hcurve
  · rfl

/-- Settles O25: every word the host reads lies in a register or a control word that the command keeps. -/
theorem commandFrame : Obligations.CommandFrame := by
  intro i s t h
  obtain ⟨hcmd, hctrl, hcurve, hinputs⟩ := exec_frame h
  refine ⟨fun r hr => exec_reg h hr, exec_res h, hcmd, hctrl, hcurve, hinputs, ?_⟩
  intro off hoff hstatus hres hfinfo
  refine State.readWord_congr hcmd hctrl hcurve (fun r w hw heq => ?_) hstatus hres hfinfo
  exact exec_reg h fun hr => hoff r w hr hw heq

/-- Settles O26: the results do not read RES, and hold a value for it exactly for the eleven commands. -/
theorem resIsWrittenByElevenCommands : Obligations.ResIsWrittenByElevenCommands := by
  intro i s
  refine ⟨fun hi a b t u ht hu hdone => ?_, fun hi t ht => exec_res ht hi⟩
  rcases exec_cases ht with ⟨r, hr, hshape, rfl⟩ | ⟨_, rfl⟩
  · obtain ⟨v, hv⟩ := Option.isSome_iff_exists.1 (hshape.res.trans hi)
    have hr' : cmdResult i s.curve s.ctrl.cofv s.opd = some r := hr
    cases hu.symm.trans (exec_of_cmdResult (s := { s with res := b }) hr')
    simp [hv]
  · cases hdone

/-- Settles O27: the results do not read PSTAT and always hold a value for it; a fault keeps what it held. -/
theorem pstatIsWrittenByEveryCompletion : Obligations.PstatIsWrittenByEveryCompletion := by
  intro i s a b t u ht hu
  rcases exec_cases ht with ⟨r, hr, hshape, rfl⟩ | ⟨_, rfl⟩
  · have hr' : cmdResult i s.curve s.ctrl.cofv s.opd = some r := hr
    cases hu.symm.trans (exec_of_cmdResult (s := { s with pstat := b }) hr')
    refine ⟨fun _ => ⟨rfl, rfl⟩, fun _ hop => hshape.pstat hop, fun hdone => ?_⟩
    cases hdone
  · refine ⟨fun hdone => ?_, fun hdone => ?_, fun _ => rfl⟩
    · cases hdone
    · cases hdone

end Sys2Proof.Machine
end

section
/-! The invariant of the engine: every effect of a step keeps it (10_state.md R59, 60_exceptions.md section 3). -/

namespace Sys2Proof.Machine

theorem State.resetOf_inv (c : Curve) : (State.resetOf c).Inv where
  regs_fit r := by
    rw [State.resetOf_reg]
    exact Vec.fits_zero c
  pending_iff_busy := rfl
  busy_not_err h := by cases h
  busy_not_done h := by cases h
  err_not_done _ := rfl
  err_iff_ecode := by simp
  snapshot_eq p h := by cases h
  word_eq p h := by cases h
  pending_legal p h := by cases h

/-- Settles O22: every build is one. -/
theorem invariantHoldsAtReset : Obligations.InvariantHoldsAtReset :=
  ⟨State.resetOf_inv Config.buildCurve, State.resetOf_inv⟩

/-- The registers of a state are CAP-bit vectors of its build (10_state.md R31). -/
def State.RegsFit (s : State) : Prop := ∀ r : Reg, (s.reg r).fits s.curve

theorem State.regsFit_setReg {s : State} (h : s.RegsFit) (r : Reg) {v : Vec} (hv : v.fits s.curve) :
    (s.setReg r v).RegsFit := by
  intro q
  rw [State.reg_setReg]
  exact Vec.fits_ite hv (h q)

theorem State.regsFit_setRegs {s : State} (h : s.RegsFit) {ws : List (Reg × Vec)}
    (hws : ∀ w ∈ ws, w.2.fits s.curve) : (s.setRegs ws).RegsFit := by
  induction ws generalizing s with
  | nil => exact h
  | cons w ws ih =>
    obtain ⟨hw, hws⟩ := List.forall_mem_cons.1 hws
    exact ih (State.regsFit_setReg h w.1 hw) hws

namespace State.Inv

variable {s : State}

/-- The invariant speaks of the engine only, not of what is to come or of the record of a read (log 3). -/
theorem withModelFields (h : s.Inv) (ins : List Input) (rd : Option Word) :
    State.Inv { s with inputs := ins, rdata := rd } :=
  ⟨h.regs_fit, h.pending_iff_busy, h.busy_not_err, h.busy_not_done, h.err_not_done, h.err_iff_ecode,
    h.snapshot_eq, h.word_eq, h.pending_legal⟩

/-- The fault action leaves an engine in ERROR with nothing pending, whatever it was before. -/
theorem raiseFault (h : s.RegsFit) {code : ECode} (hcode : code ≠ .none) (info : Word) :
    (s.raiseFault code info).Inv where
  regs_fit := h
  pending_iff_busy := rfl
  busy_not_err hb := by cases hb
  busy_not_done hb := by cases hb
  err_not_done _ := rfl
  err_iff_ecode := by simp [hcode]
  snapshot_eq _ hp := by cases hp
  word_eq _ hp := by cases hp
  pending_legal _ hp := by cases hp

theorem engineReset (s : State) : s.engineReset.Inv :=
  (State.resetOf_inv s.curve).withModelFields s.inputs none

/-- While BUSY the operands are the registers (60_exceptions.md R177). -/
theorem opd_fits (h : s.Inv) (q : Reg) : (s.opd q).fits s.curve := by
  have hsnap : s.snapshot = s.R := by
    cases hp : s.pending with
    | none => exact State.snapshot_of_none hp
    | some p => rw [State.snapshot_of_pending hp, h.snapshot_eq p hp]
  rw [State.opd, hsnap]
  exact h.regs_fit q

/-- A completion leaves the engine IDLE with DONE = 1: BUSY before excludes ERR after. -/
theorem commit (h : s.Inv) (hb : s.busy = true) {r : CmdResult} (hr : r.Fits s.curve) :
    (s.commit r).Inv where
  regs_fit q := by
    rw [State.commit_curve, State.commit_reg, ← State.setRegs_curve s r.writes]
    exact State.regsFit_setRegs h.regs_fit hr q
  pending_iff_busy := rfl
  busy_not_err hb := by cases hb
  busy_not_done hb := by cases hb
  err_not_done he := by
    rw [State.commit_err, h.busy_not_err hb] at he
    cases he
  err_iff_ecode := by
    rw [State.commit_err, State.commit_ecode]
    exact h.err_iff_ecode
  snapshot_eq _ hp := by cases hp
  word_eq _ hp := by cases hp
  pending_legal _ hp := by cases hp

/-- Acceptance ends in ERROR, or BUSY with the registers as the snapshot and CMD as the pending word. -/
theorem accept (h : s.Inv) (he : s.err = false) (w : Word) : (s.accept w).Inv := by
  rcases s.accept_cases w with ⟨_, ha⟩ | ⟨_, ha⟩ | ⟨i, hlegal, ha⟩
  · rw [ha]
    exact raiseFault (s := { s with cmd := w, done := false }) h.regs_fit (by decide) w
  · rw [ha]
    exact raiseFault (s := { s with cmd := w, done := false }) h.regs_fit (by decide) w
  · rw [ha]
    exact {
      regs_fit := h.regs_fit
      pending_iff_busy := rfl
      busy_not_err := fun _ => he
      busy_not_done := fun _ => rfl
      err_not_done := fun _ => rfl
      err_iff_ecode := h.err_iff_ecode
      snapshot_eq := by rintro p ⟨⟩; rfl
      word_eq := by rintro p ⟨⟩; rfl
      pending_legal := by rintro p ⟨⟩; exact ⟨i, hlegal⟩ }

theorem clearDone (h : s.Inv) : State.Inv { s with done := false } :=
  { h with busy_not_done := fun _ => rfl, err_not_done := fun _ => rfl }

/-- CTRL is no part of the invariant. -/
theorem withCtrl (h : s.Inv) (k : Ctrl) : State.Inv { s with ctrl := k } := { h with }

/-- A write to the data window of an engine that is not BUSY: no snapshot stands beside it (20_memory.md R62). -/
theorem setReg (h : s.Inv) (hb : s.busy = false) (r : Reg) {v : Vec} (hv : v.fits s.curve) :
    (s.setReg r v).Inv where
  regs_fit := State.regsFit_setReg h.regs_fit r hv
  pending_iff_busy := h.pending_iff_busy
  busy_not_err := h.busy_not_err
  busy_not_done := h.busy_not_done
  err_not_done := h.err_not_done
  err_iff_ecode := h.err_iff_ecode
  snapshot_eq p hp := by
    have hsome := h.pending_iff_busy
    rw [show s.pending = some p from hp, hb] at hsome
    cases hsome
  word_eq := h.word_eq
  pending_legal := h.pending_legal

end State.Inv

/-- Every effect of a step keeps the invariant. -/
theorem Transition.inv {s t : State} {e : Option Input} (h : Transition s e t) (hs : s.Inv) : t.Inv := by
  cases h with
  | stay => exact hs
  | complete _ busy _ _ result => exact hs.commit busy (cmdResult_fits hs.opd_fits result)
  | fault _ code info isFault => exact .raiseFault hs.regs_fit isFault info
  | hardReset => exact .engineReset s
  | softReset => exact .engineReset s
  | writeCtrl v => exact hs.withCtrl (Ctrl.ofWord v)
  | clearDone => exact hs.clearDone
  | accept v notErr => exact hs.accept notErr v
  | writeData _ r w v notBusy mapped =>
    exact hs.setReg notBusy r (Vec.fits_setWord (hs.regs_fit r) mapped v)

/-- Settles O21: by cases on the effects a step can have. -/
theorem stepKeepsInvariant : Obligations.StepKeepsInvariant := by
  intro s t hs hstep
  obtain ⟨u, rd, hu, rfl⟩ := transition_of_step hstep
  exact (hu.inv (hs.withModelFields s.inputs.tail s.rdata)).withModelFields u.inputs rd

end Sys2Proof.Machine
end

section
/-! The two windows (20_memory.md R62, R63): where each word stands, and what a replaced word leaves. -/

namespace Sys2Proof

/-- Writing a word replaces its 32 bits and no other (20_memory.md R62). -/
theorem getLsbD_setWord (v : Vec) {w : Nat} (hw : w < 18) (x : Word) (i : Nat) :
    (setWord v w x).getLsbD i =
      if 32 * w ≤ i ∧ i < 32 * w + 32 then x.getLsbD (i - 32 * w) else v.getLsbD i := by
  have hmask (j : Nat) : (0xFFFFFFFF#576).getLsbD j = decide (j < 32) := getLsbD_vmask 32 j (by decide)
  simp only [setWord, BitVec.getLsbD_or, BitVec.getLsbD_and, BitVec.getLsbD_not,
    BitVec.getLsbD_shiftLeft, BitVec.getLsbD_setWidth, hmask]
  by_cases hlow : i < 32 * w
  · have hi : i < 576 := by omega
    simp [hlow, hi, Nat.not_le.mpr hlow]
  · by_cases hin : i < 32 * w + 32
    · have hi : i < 576 := by omega
      have hj : i - 32 * w < 32 := by omega
      have hj' : i - 32 * w < 576 := by omega
      simp [hlow, hin, hi, hj, hj', Nat.not_lt.mp hlow]
    · have hx : x.getLsbD (i - 32 * w) = false := BitVec.getLsbD_of_ge _ _ (by omega)
      have hj : ¬ i - 32 * w < 32 := by omega
      by_cases hi : i < 576
      · simp [hlow, hin, hi, hj, hx]
      · simp [hlow, hin, hi, BitVec.getLsbD_of_ge v i (by omega)]

/-- A word read after a word was written: the word written, or the old one (20_memory.md R62). -/
theorem getWord_setWord (v : Vec) {w : Nat} (hw : w < 18) (x : Word) (u : Nat) :
    getWord (setWord v w x) u = if u = w then x else getWord v u := by
  apply BitVec.eq_of_getLsbD_eq
  intro i hi
  rw [getLsbD_getWord _ _ hi, getLsbD_setWord v hw]
  by_cases hu : u = w
  · subst hu
    rw [if_pos (by omega), if_pos rfl, Nat.add_sub_cancel_left]
  · rw [if_neg (by omega), if_neg hu, getLsbD_getWord _ _ hi]

namespace Machine

/-- A word of the data window lies below the constant window. -/
theorem dataOff_lt_blockSize (r : Reg) {c : Curve} {w : Nat} (hw : w < c.nwords) :
    dataOff r w < blockSize := by
  have := c.nwords_le
  unfold dataOff blockSize
  omega

theorem dataOff_aligned (r : Reg) (w : Nat) : dataOff r w % 4 = 0 := by
  unfold dataOff
  omega

/-- The words of the data window are mapped, in every build (20_memory.md R62). -/
theorem locate_dataOff {c : Curve} (r : Reg) {w : Nat} (hw : w < c.nwords) :
    locate c (dataOff r w) = some (.data r w) := by
  have hn := c.nwords_le
  have hword : dataOff r w % 0x80 / 4 = w := by unfold dataOff; omega
  have hslot : (dataOff r w - 0x100) / 0x80 = r.val := by unfold dataOff; omega
  have hdata : dataOff r w < 0x900 := by unfold dataOff; omega
  have hwindow : ¬ dataOff r w < 0x100 := by unfold dataOff; omega
  simp only [locate, hword, hslot, if_neg hwindow, if_pos hdata, if_neg (Nat.not_le.mpr hw),
    Fin.ofNat_val_eq_self]

/-- A word of the constant window lies inside the block. -/
theorem constOff_lt_blockSize (n : ConstName) {c : Curve} {w : Nat} (hw : w < c.nwords) :
    constOff n w < blockSize := by
  have := c.nwords_le
  have hindex : n.index ≤ 4 := by cases n <;> decide
  unfold constOff blockSize
  omega

theorem constOff_aligned (n : ConstName) (w : Nat) : constOff n w % 4 = 0 := by
  unfold constOff
  omega

section
variable (s : State) {w : Nat} (hw : w < s.curve.nwords)
include hw

theorem hostRead_data (r : Reg) :
    hostRead 32 (dataOff r w) s = .next { s with rdata := some (getWord (s.reg r) w) } :=
  hostRead_of_locate (dataOff_lt_blockSize r hw) (dataOff_aligned r w) (locate_dataOff r hw)

theorem hostWrite_data (r : Reg) (v : Word) :
    hostWrite 32 (dataOff r w) v s =
      .next { s.writeLoc (dataOff r w) v (.data r w) with rdata := none } :=
  hostWrite_of_locate v (dataOff_lt_blockSize r hw) (dataOff_aligned r w) (locate_dataOff r hw)

theorem hostWrite_data_of_idle (r : Reg) (v : Word) (hb : s.busy = false) :
    hostWrite 32 (dataOff r w) v s =
      .next { s.setReg r (setWord (s.reg r) w v) with rdata := none } := by
  rw [hostWrite_data s hw, State.writeLoc_data_of_idle r w hb]

theorem hostRead_const (n : ConstName) :
    hostRead 32 (constOff n w) s = .next { s with rdata := some (getWord (s.curve.const n) w) } :=
  hostRead_of_locate (constOff_lt_blockSize n hw) (constOff_aligned n w) (locate_constOff n hw)

end

/-- What a fault leaves, with the record of the host access that met it (log 3): the record is no part of the
engine. -/
theorem State.raiseFault_rdata_faulted (s : State) (code : ECode) (info : Word) (rd : Option Word) :
    Faulted s { s.raiseFault code info with rdata := rd } code info :=
  { s.raiseFault_faulted code info with }

/-- Settles O30: a write to a mapped word is `setWord` on its register, which replaces one word. -/
theorem dataWindowReadsAndWrites : Obligations.DataWindowReadsAndWrites := by
  intro s r w v hw
  have hw18 : w < 18 := Nat.lt_of_lt_of_le hw s.curve.nwords_le
  refine ⟨hostRead_data s hw r, fun hb => ?_, fun hb => ⟨_, hostWrite_data s hw r v, ?_⟩⟩
  · refine ⟨setWord (s.reg r) w v, hostWrite_data_of_idle s hw r v hb, ?_, fun i hi => ?_⟩
    · exact (getWord_setWord _ hw18 v w).trans (if_pos rfl)
    · rw [getLsbD_setWord _ hw18, if_neg (by omega)]
  · rw [State.writeLoc_data_of_busy r w hb]
    exact s.raiseFault_rdata_faulted .overrun _ none

/-! Accesses that fault with BUS (60_exceptions.md R185). -/

/-- A write to a location that takes none faults with BUS (60_exceptions.md R185). -/
theorem hostWrite_faulted_of_readOnly (s : State) {off : Nat} {l : Loc} (v : Word) (hb : off < blockSize)
    (ha : off % 4 = 0) (h : locate s.curve off = some l)
    (hl : s.writeLoc off v l = s.raiseFault .bus (zext32 off)) :
    ∃ t, hostWrite 32 off v s = .next t ∧ Faulted s t .bus (zext32 off) := by
  refine ⟨_, hostWrite_of_locate v hb ha h, ?_⟩
  rw [hl]
  exact s.raiseFault_rdata_faulted .bus _ none

/-- Settles O31: every word of a constant is mapped, and its location takes no write. -/
theorem constantWindowIsReadOnly : Obligations.ConstantWindowIsReadOnly := by
  intro s n w v hw
  exact ⟨hostRead_const s hw n, hostWrite_faulted_of_readOnly s v (constOff_lt_blockSize n hw)
    (constOff_aligned n w) (locate_constOff n hw) rfl⟩

section
variable (s : State) {width off : Nat} (hb : off < blockSize) (h : access s.curve width off = none)
include hb h

/-- A read that reaches no location faults with BUS and returns 0 (60_exceptions.md R185). -/
theorem hostRead_faulted_of_access_none :
    ∃ t, hostRead width off s = .next t ∧ Faulted s t .bus (zext32 off) ∧ t.rdata = some 0 := by
  refine ⟨_, ?_, s.raiseFault_rdata_faulted .bus _ (some 0), rfl⟩
  simp [hostRead, Nat.not_le.mpr hb, h]

/-- A write that reaches no location faults with BUS (60_exceptions.md R185). -/
theorem hostWrite_faulted_of_access_none (v : Word) :
    ∃ t, hostWrite width off v s = .next t ∧ Faulted s t .bus (zext32 off) := by
  refine ⟨_, ?_, s.raiseFault_rdata_faulted .bus _ none⟩
  simp [hostWrite, Nat.not_le.mpr hb, h]

end

/-- Settles O33: such an access reaches no location. -/
theorem narrowOrMisalignedAccessFaults : Obligations.NarrowOrMisalignedAccessFaults := by
  intro s width off v hb hbad
  have hnone : access s.curve width off = none := if_neg (by omega)
  exact ⟨hostRead_faulted_of_access_none s hb hnone, hostWrite_faulted_of_access_none s hb hnone v⟩

/-- The gap between FINFO and the data window (20_memory.md R61). -/
theorem locate_of_controlGap (c : Curve) {off : Nat} (hlo : 0x01C ≤ off) (hhi : off < 0x100) :
    locate c off = none := by
  simp only [locate, if_pos hhi]
  split
  case h_8 => rfl
  all_goals omega

/-- A slot word that no vector of the build has (20_memory.md R62, R63). -/
theorem locate_of_slotGap (c : Curve) {off : Nat} (hlo : 0x100 ≤ off) (hw : c.nwords ≤ off % 0x80 / 4) :
    locate c off = none := by
  simp only [locate, if_neg (Nat.not_lt.mpr hlo), if_pos hw]

/-- The slot after the last constant (20_memory.md R61). -/
theorem locate_of_constGap (c : Curve) {off : Nat} (hlo : 0xB80 ≤ off) (hhi : off < blockSize) :
    locate c off = none := by
  have hslot : (off - 0x900) / 0x80 = 5 := by unfold blockSize at hhi; omega
  have hwindow : ¬ off < 0x100 := by omega
  have hconst : ¬ off < 0x900 := by omega
  simp only [locate, if_neg hwindow, if_neg hconst, hslot, ConstName.ofIndex, ite_self]

/-- Settles O32: the three gaps of the map, and the four locations of the control block that take no write. -/
theorem unmappedAndReadOnlyOffsetsFault : Obligations.UnmappedAndReadOnlyOffsetsFault := by
  intro s off v hb ha
  constructor
  · intro hgap
    have hnone : access s.curve 32 off = none := by
      rw [access_word s.curve ha]
      obtain ⟨hlo, hhi⟩ | ⟨hlo, hw⟩ | hlo := hgap
      · exact locate_of_controlGap _ hlo hhi
      · exact locate_of_slotGap _ hlo hw
      · exact locate_of_constGap _ hlo hb
    exact ⟨hostRead_faulted_of_access_none s hb hnone, hostWrite_faulted_of_access_none s hb hnone v⟩
  · rintro (rfl | rfl | rfl | rfl)
    · exact hostWrite_faulted_of_readOnly s (l := .id) v hb ha rfl rfl
    · exact hostWrite_faulted_of_readOnly s (l := .cfg) v hb ha rfl rfl
    · exact hostWrite_faulted_of_readOnly s (l := .res) v hb ha rfl rfl
    · exact hostWrite_faulted_of_readOnly s (l := .finfo) v hb ha rfl rfl

end Machine

end Sys2Proof
end

section
/-! A vector moved word by word through the data window (20_memory.md R67, R69, R71). -/

namespace Sys2Proof

/-- `x` with the words named by `ws` taken from `v`: what the host's writes of `storeVec` make of a register;
`runSteps_dataWrites` ties it to them. -/
def copyWords (v : Vec) : List Nat → Vec → Vec
  | [], x => x
  | w :: ws, x => copyWords v ws (setWord x w (getWord v w))

theorem Vec.fits_copyWords {c : Curve} (v : Vec) {ws : List Nat} (hws : ∀ w ∈ ws, w < c.nwords) {x : Vec}
    (hx : x.fits c) : (copyWords v ws x).fits c := by
  induction ws generalizing x with
  | nil => exact hx
  | cons w ws ih =>
    obtain ⟨hw, hws⟩ := List.forall_mem_cons.1 hws
    exact ih hws (Vec.fits_setWord hx hw _)

/-- A copied word is the source's, every other word the old one. -/
theorem getWord_copyWords (v : Vec) {ws : List Nat} (hws : ∀ w ∈ ws, w < 18) (x : Vec) (u : Nat) :
    getWord (copyWords v ws x) u = if u ∈ ws then getWord v u else getWord x u := by
  induction ws generalizing x with
  | nil => rfl
  | cons w ws ih =>
    obtain ⟨hw, hws⟩ := List.forall_mem_cons.1 hws
    rw [copyWords, ih hws, getWord_setWord x hw]
    by_cases huw : u = w
    · simp [huw]
    · simp [huw]

/-- All NWORDS words copied make the vector, whatever stood there before. -/
theorem copyWords_range {c : Curve} {v x : Vec} (hv : v.fits c) (hx : x.fits c) :
    copyWords v (List.range c.nwords) x = v := by
  have hmem : ∀ w ∈ List.range c.nwords, w < c.nwords := fun _ => List.mem_range.1
  have h18 : ∀ w ∈ List.range c.nwords, w < 18 := fun w hw => (hmem w hw).trans_le c.nwords_le
  refine Vec.eq_of_getWord_eq (Vec.fits_copyWords v hmem hx) hv fun w hw => ?_
  rw [getWord_copyWords v h18, if_pos (List.mem_range.2 hw)]

namespace Machine

theorem runSteps_zero (s : State) : runSteps 0 s = .next s := rfl

/-- A run goes on from the state its first step leads to. -/
theorem run_succ_of_step (M : Host.Core) {s t : M.State} (n : Nat) (h : M.step s = .next t) :
    M.run (n + 1) s = M.run n t := by
  simp [Host.Core.run, h]

theorem runSteps_succ_of_step {s t : State} (n : Nat) (h : step s = .next t) :
    runSteps (n + 1) s = runSteps n t :=
  run_succ_of_step core n h

/-- A write to the data window of an engine that is not BUSY, as a step. -/
theorem step_dataWrite {s : State} {r : Reg} {w : Nat} {x : Word} {rest : List Input}
    (hb : s.busy = false) (hw : w < s.curve.nwords) (hin : s.inputs = .write 32 (dataOff r w) x :: rest) :
    step s = .next { s.setReg r (setWord (s.reg r) w x) with inputs := rest, rdata := none } := by
  rw [step, advance, hin]
  exact hostWrite_data_of_idle { s with inputs := rest } hw r x hb

/-- A run of data-window writes of words of `v`, of one register: the words are copied, and no other register
changes. -/
theorem runSteps_dataWrites {s : State} (r : Reg) (v : Vec) {ws : List Nat} (hb : s.busy = false)
    (hws : ∀ w ∈ ws, w < s.curve.nwords)
    (hin : s.inputs = ws.map fun w => .write 32 (dataOff r w) (getWord v w)) :
    ∃ t, runSteps ws.length s = .next t ∧ t.inputs = [] ∧ t.curve = s.curve ∧
      t.reg r = copyWords v ws (s.reg r) ∧ ∀ q, q ≠ r → t.reg q = s.reg q := by
  induction ws generalizing s with
  | nil => exact ⟨s, runSteps_zero s, hin, rfl, rfl, fun _ _ => rfl⟩
  | cons w ws ih =>
    obtain ⟨hw, hws⟩ := List.forall_mem_cons.1 hws
    have hstep := step_dataWrite hb hw hin
    obtain ⟨t, hrun, hinputs, hcurve, hreg, hother⟩ := ih (s := { s.setReg r (setWord (s.reg r) w
      (getWord v w)) with inputs := _, rdata := none }) hb hws rfl
    refine ⟨t, (runSteps_succ_of_step _ hstep).trans hrun, hinputs, hcurve, ?_, fun q hq => ?_⟩
    · rw [hreg, copyWords]
      exact congrArg _ (State.reg_setReg_self s r _)
    · exact (hother q hq).trans (State.reg_setReg_ne s _ hq)

/-- Settles O39: `storeVec` writes every word of the register. -/
theorem vectorStoredThroughTheWindow : Obligations.VectorStoredThroughTheWindow := by
  intro s r v hb hv hr hin
  obtain ⟨t, hrun, hinputs, hcurve, hreg, hother⟩ :=
    runSteps_dataWrites r v hb (fun _ => List.mem_range.1) hin
  rw [List.length_range] at hrun
  rw [copyWords_range hv hr] at hreg
  refine ⟨t, hrun, hinputs, hreg, hother, fun w hw => ?_⟩
  rw [← hcurve] at hw
  rw [State.readWord_of_locate (dataOff_aligned r w) (locate_dataOff r hw), ← hreg]
  rfl

end Machine

end Sys2Proof
end

section
/-! Host buffers (20_memory.md R67, R68): a buffer is the bytes of its words, four to a word. -/

namespace Sys2Proof

@[simp] theorem length_wordBytes (o : ByteOrder) (x : Word) : (wordBytes o x).length = 4 := by
  cases o <;> rfl

theorem getElem?_wordBytes_little (x : Word) {k : Nat} (hk : k < 4) :
    (wordBytes .little x)[k]? = some (x.extractLsb' (8 * k) 8) := by
  interval_cases k <;> rfl

theorem getElem?_wordBytes_big (x : Word) {k : Nat} (hk : k < 4) :
    (wordBytes .big x)[k]? = some (x.extractLsb' (24 - 8 * k) 8) := by
  interval_cases k <;> rfl

/-- Byte `4 * w + k` of a buffer is byte `k` of word `w`. -/
theorem getElem?_flatMap_wordBytes (o : ByteOrder) (xs : List Word) (w : Nat) {k : Nat} (hk : k < 4) :
    (xs.flatMap (wordBytes o))[4 * w + k]? = xs[w]?.bind fun x => (wordBytes o x)[k]? := by
  induction xs generalizing w with
  | nil => simp
  | cons x xs ih =>
    rw [List.flatMap_cons]
    cases w with
    | zero => simp [List.getElem?_append_left, hk]
    | succ w =>
      rw [List.getElem?_append_right (by simp; omega), length_wordBytes,
        show 4 * (w + 1) + k - 4 = 4 * w + k by omega, ih w, List.getElem?_cons_succ]

theorem getElem?_vecWords {c : Curve} (v : Vec) {w : Nat} (hw : w < c.nwords) :
    (vecWords c v)[w]? = some (getWord v w) := by
  simp [vecWords, hw]

theorem getElem?_vecBytes (o : ByteOrder) {c : Curve} (v : Vec) {w k : Nat} (hw : w < c.nwords)
    (hk : k < 4) : (vecBytes o c v)[4 * w + k]? = (wordBytes o (getWord v w))[k]? := by
  rw [vecBytes, getElem?_flatMap_wordBytes o _ w hk, getElem?_vecWords v hw, Option.bind_some]

/-- The bits of a byte of word `w`, as bits of the vector. -/
theorem extractLsb'_getWord (v : Vec) (w : Nat) {j : Nat} (hj : j ≤ 24) :
    (getWord v w).extractLsb' j 8 = v.extractLsb' (32 * w + j) 8 := by
  apply BitVec.eq_of_getLsbD_eq
  intro i hi
  have hbit : j + i < 32 := by omega
  simp only [BitVec.getLsbD_extractLsb', hi, decide_true, Bool.true_and, getLsbD_getWord v w hbit,
    Nat.add_assoc]

theorem getElem?_vecBytes_little {c : Curve} (v : Vec) {j : Nat} (hj : j < c.keyBytes) :
    (vecBytes .little c v)[j]? = some (v.extractLsb' (8 * j) 8) := by
  have hw : j / 4 < c.nwords := Nat.div_lt_of_lt_mul hj
  have hk : j % 4 < 4 := Nat.mod_lt j (by decide)
  calc (vecBytes .little c v)[j]?
      = (vecBytes .little c v)[4 * (j / 4) + j % 4]? := by rw [Nat.div_add_mod]
    _ = some ((getWord v (j / 4)).extractLsb' (8 * (j % 4)) 8) := by
      rw [getElem?_vecBytes .little v hw hk, getElem?_wordBytes_little _ hk]
    _ = some (v.extractLsb' (8 * j) 8) := by
      rw [extractLsb'_getWord v _ (by omega), show 32 * (j / 4) + 8 * (j % 4) = 8 * j by omega]

theorem getElem?_vecBytes_big {c : Curve} (v : Vec) {w k : Nat} (hw : w < c.nwords) (hk : k < 4) :
    (vecBytes .big c v)[4 * w + k]? = some (v.extractLsb' (32 * w + 24 - 8 * k) 8) := by
  rw [getElem?_vecBytes .big v hw hk, getElem?_wordBytes_big _ hk, extractLsb'_getWord v w (by omega),
    show 32 * w + (24 - 8 * k) = 32 * w + 24 - 8 * k by omega]

@[simp] theorem length_vecBytes (o : ByteOrder) (c : Curve) (v : Vec) :
    (vecBytes o c v).length = c.keyBytes := by
  simp [vecBytes, Curve.keyBytes, Nat.mul_comm]

/-! The way back. -/

/-- A word is its four bytes. -/
theorem append_bytes (x : Word) :
    x.extractLsb' 24 8 ++ x.extractLsb' 16 8 ++ x.extractLsb' 8 8 ++ x.extractLsb' 0 8 = x := by
  rw [BitVec.extractLsb'_append_extractLsb'_eq_extractLsb' (show 24 = 16 + 8 from rfl),
    BitVec.extractLsb'_append_extractLsb'_eq_extractLsb' (show 16 = 8 + 8 from rfl),
    BitVec.extractLsb'_append_extractLsb'_eq_extractLsb' (show 8 = 0 + 8 from rfl)]
  exact BitVec.extractLsb'_eq_self

/-- Four bytes of a word, loaded in the order in which they were stored, are the word. -/
theorem bytesWords_wordBytes_append (o : ByteOrder) (x : Word) (bs : List Byte) :
    bytesWords o (wordBytes o x ++ bs) = x :: bytesWords o bs := by
  cases o with
  | little => exact congrArg (· :: bytesWords .little bs) (append_bytes x)
  | big => exact congrArg (· :: bytesWords .big bs) (append_bytes x)

theorem bytesWords_flatMap_wordBytes (o : ByteOrder) (xs : List Word) :
    bytesWords o (xs.flatMap (wordBytes o)) = xs := by
  induction xs with
  | nil => rfl
  | cons x xs ih => rw [List.flatMap_cons, bytesWords_wordBytes_append, ih]

/-- Bit `i` of the vector of an array of words is bit `i % 32` of word `i / 32` (20_memory.md R66). -/
theorem getLsbD_vecOfWords (xs : List Word) {i : Nat} (hi : i < 576) :
    (vecOfWords xs).getLsbD i = (xs[i / 32]?.getD 0).getLsbD (i % 32) := by
  induction xs generalizing i with
  | nil => simp [vecOfWords]
  | cons x xs ih =>
    rcases Nat.lt_or_ge i 32 with hlow | hhigh
    · have hw : i / 32 = 0 := Nat.div_eq_of_lt hlow
      simp [vecOfWords, hi, hlow, hw, Nat.mod_eq_of_lt hlow]
    · have hx : x.getLsbD i = false := BitVec.getLsbD_of_ge x i hhigh
      have hw : i / 32 = (i - 32) / 32 + 1 := by omega
      have hk : i % 32 = (i - 32) % 32 := by omega
      have hj : i - 32 < 576 := by omega
      rw [hw, hk, List.getElem?_cons_succ, ← ih hj]
      simp [vecOfWords, hi, hx, Nat.not_lt.mpr hhigh, BitVec.getLsbD_eq_getElem hj]

theorem vecOfWords_vecWords {c : Curve} {v : Vec} (hv : v.fits c) : vecOfWords (vecWords c v) = v := by
  apply BitVec.eq_of_getLsbD_eq
  intro i hi
  rw [getLsbD_vecOfWords _ hi]
  rcases Nat.lt_or_ge i c.cap with hlt | hge
  · have hw : i / 32 < c.nwords := Nat.div_lt_of_lt_mul hlt
    rw [getElem?_vecWords v hw, Option.getD_some, getLsbD_getWord v _ (Nat.mod_lt i (by decide)),
      Nat.div_add_mod]
  · have hw : (vecWords c v).length ≤ i / 32 := by
      rw [length_vecWords, Nat.le_div_iff_mul_le (by decide), Nat.mul_comm]
      exact hge
    rw [List.getElem?_eq_none hw, (Vec.fits_iff c v).1 hv i hge]
    simp

/-- A buffer read back is its vector (20_memory.md R67). -/
theorem vecOfBytes_vecBytes (o : ByteOrder) {c : Curve} {v : Vec} (hv : v.fits c) :
    vecOfBytes o c (vecBytes o c v) = some v := by
  rw [vecOfBytes, if_pos (length_vecBytes o c v), vecBytes, bytesWords_flatMap_wordBytes,
    vecOfWords_vecWords hv]

/-- A point's buffer read back is the point (20_memory.md R68). -/
theorem pointOfBytes_pointBytes (o : ByteOrder) {c : Curve} {p : Point} (hx : p.x.fits c)
    (hy : p.y.fits c) : pointOfBytes o c (pointBytes o c p) = some p := by
  have hlen := length_vecBytes o c p.x
  rw [pointOfBytes, pointBytes, List.take_left' hlen, List.drop_left' hlen, vecOfBytes_vecBytes o hx,
    vecOfBytes_vecBytes o hy]

/-- Settles O40: the place of each byte under either order, and the two round trips. -/
theorem hostBufferLayout : Obligations.HostBufferLayout := by
  intro c v hv
  refine ⟨fun j hj => getElem?_vecBytes_little v hj, fun w k hw hk => getElem?_vecBytes_big v hw hk,
    fun o => ⟨length_vecBytes o c v, vecOfBytes_vecBytes o hv, fun u hu => ⟨rfl, ?_⟩⟩⟩
  exact pointOfBytes_pointBytes o hv hu

end Sys2Proof
end

section
/-! Decode and encode are inverse to each other (30_encoding.md sections 1 to 4): a word is made of its fields,
what each part of the decoder lets pass, and the three verdicts read off the encoder. -/

namespace Sys2Proof

/-! A word is made of its fields (30_encoding.md R81, R82). -/

/-- Where the top bits of a word are 0 as a field, each of them is 0. -/
theorem getLsbD_of_top_eq_zero {w : Word} {start len : Nat} (hlen : 32 ≤ start + len)
    (h : w.extractLsb' start len = 0) {i : Nat} (hi : start ≤ i) : w.getLsbD i = false := by
  rcases Nat.lt_or_ge i 32 with hlt | hge
  · have hbit := congrArg (·.getLsbD (i - start)) h
    simpa [show i - start < len by omega, Nat.add_sub_of_le hi] using hbit
  · exact BitVec.getLsbD_of_ge w i hge

theorem wordR_fields {w : Word} (h : highR w = 0) :
    wordR (opField w) (rdField w) (rs1Field w) (rs2Field w) (rs3Field w) = w := by
  apply BitVec.eq_of_getLsbD_eq
  intro i hi
  rw [getLsbD_wordR _ _ _ _ _ _ hi]
  rcases Nat.lt_or_ge i 24 with hlt | hge
  · interval_cases i <;> simp [opField, rdField, rs1Field, rs2Field, rs3Field]
  · rw [getLsbD_of_top_eq_zero (by decide) h hge]
    interval_cases i <;> simp

theorem wordI_fields {w : Word} (h : highI w = 0) :
    wordI (opField w) (rdField w) (rs1Field w) (immField w) = w := by
  apply BitVec.eq_of_getLsbD_eq
  intro i hi
  rw [getLsbD_wordI _ _ _ _ _ hi]
  rcases Nat.lt_or_ge i 26 with hlt | hge
  · interval_cases i <;> simp [opField, rdField, rs1Field, immField]
  · rw [getLsbD_of_top_eq_zero (by decide) h hge]
    interval_cases i <;> simp

/-! What each part of the decoder lets pass (30_encoding.md R86, R87, R89, R90). -/

/-- A field that is unused and zero, or used, is what the encoder puts in its place. -/
theorem usedField_eq {use : Bool} {f : BitVec 4} (h : ¬ (!use && f != 0) = true) :
    (bif use then f else 0) = f := by
  cases use with
  | false =>
    have hzero : f = 0 := by simpa using h
    exact hzero.symm
  | true => rfl

/-- A word that passes checks 2 and 3 of format R is its opcode and its used fields, and nothing else. -/
theorem of_formatR_eq_ok {w : Word} {op : BitVec 8} {useRd useRs1 useRs2 useRs3 : Bool}
    {k : Except Illegal Instr} {i : Instr} (hop : opField w = op)
    (h : formatR w useRd useRs1 useRs2 useRs3 k = .ok i) :
    k = .ok i ∧ wordR op (bif useRd then rdField w else 0) (bif useRs1 then rs1Field w else 0)
      (bif useRs2 then rs2Field w else 0) (bif useRs3 then rs3Field w else 0) = w := by
  unfold formatR at h
  split at h
  · cases h
  · next hhigh =>
    split at h
    · cases h
    · next hunused =>
      simp only [Bool.or_eq_true, not_or] at hunused
      obtain ⟨⟨⟨hrd, hrs1⟩, hrs2⟩, hrs3⟩ := hunused
      rw [usedField_eq hrd, usedField_eq hrs1, usedField_eq hrs2, usedField_eq hrs3, ← hop]
      exact ⟨h, wordR_fields (not_not.1 hhigh)⟩

/-- A word that passes checks 2 and 3 of format I is its opcode, its used fields and its immediate. -/
theorem of_formatI_eq_ok {w : Word} {op : BitVec 8} {useRd useRs1 : Bool} {k : Except Illegal Instr}
    {i : Instr} (hop : opField w = op) (h : formatI w useRd useRs1 k = .ok i) :
    k = .ok i ∧ wordI op (bif useRd then rdField w else 0) (bif useRs1 then rs1Field w else 0)
      (immField w) = w := by
  unfold formatI at h
  split at h
  · cases h
  · next hhigh =>
    split at h
    · cases h
    · next hunused =>
      simp only [Bool.or_eq_true, not_or] at hunused
      obtain ⟨hrd, hrs1⟩ := hunused
      rw [usedField_eq hrd, usedField_eq hrs1, ← hop]
      exact ⟨h, wordI_fields (not_not.1 hhigh)⟩

/-- A point field that passes check 4 is the field of the pair it names. -/
theorem pairBits_of_pairOf {f : BitVec 4} {p : Pair} (h : pairOf f = some p) : pairBits p = f := by
  revert f p
  decide

theorem of_withPair_eq_ok {f : BitVec 4} {k : Pair → Except Illegal Instr} {i : Instr}
    (h : withPair f k = .ok i) : ∃ p, pairBits p = f ∧ k p = .ok i := by
  unfold withPair at h
  split at h
  · cases h
  · next p hp => exact ⟨p, pairBits_of_pairOf hp, h⟩

theorem of_checkImm_eq_ok {c : Curve} {i j : Instr} (h : checkImm c i = .ok j) :
    i = j ∧ i.immInRange c = true := by
  unfold checkImm at h
  split at h
  · next himm =>
    cases h
    exact ⟨rfl, himm⟩
  · cases h

theorem of_withConst_eq_ok {imm : Imm10} {k : ConstName → Instr} {i : Instr}
    (h : withConst imm k = .ok i) : ∃ n : ConstName, BitVec.ofNat 10 n.index = imm ∧ k n = i := by
  unfold withConst at h
  split at h
  · cases h
  · next n hn =>
    cases h
    refine ⟨n, ?_, rfl⟩
    rw [← ConstName.eq_index_of_ofIndex hn, BitVec.ofNat_toNat, BitVec.setWidth_eq]

/-! The round trips. -/

/-- A command with its immediate in range is read back from its word. -/
theorem decode_encode {c : Curve} {i : Instr} (himm : i.immInRange c = true) :
    decode c (encode i) = .ok i := by
  cases i with
  | getbit | clrbit =>
    simpa [encode, decode, formatI, checkImm] using himm
  | lshift => simp [encode, decode, formatI]
  | ldc => simp [encode, decode, formatI, withConst, -BitVec.toNat_ofNat]
  | _ => simp [encode, decode, formatR, withPair]

/-- A word is read only as the command that it encodes, its immediate in range. The cases are the arms of the
decoder, grouped by the checks 4 and 5 they make. -/
theorem encode_of_decode_eq_ok {c : Curve} {w : Word} {i : Instr} (h : decode c w = .ok i) :
    encode i = w ∧ i.immInRange c = true := by
  unfold decode at h
  dsimp only at h
  split at h
  -- registers only: NOP, COPY to DEGREE, the Field family
  case h_1 hop | h_4 hop | h_5 hop | h_6 hop | h_7 hop | h_8 hop | h_9 hop | h_12 hop | h_13 hop |
      h_14 hop | h_15 hop | h_16 hop | h_17 hop | h_18 hop =>
    obtain ⟨hk, hw⟩ := of_formatR_eq_ok hop h
    cases hk
    exact ⟨hw, rfl⟩
  -- a bit index: GETBIT, CLRBIT
  case h_2 hop | h_3 hop =>
    obtain ⟨hk, hw⟩ := of_formatI_eq_ok hop h
    obtain ⟨rfl, himm⟩ := of_checkImm_eq_ok hk
    exact ⟨hw, himm⟩
  -- a shift count, unchecked: LSHIFT
  case h_10 hop =>
    obtain ⟨hk, hw⟩ := of_formatI_eq_ok hop h
    cases hk
    exact ⟨hw, rfl⟩
  -- a constant index: LDC
  case h_11 hop =>
    obtain ⟨hk, hw⟩ := of_formatI_eq_ok hop h
    obtain ⟨n, hn, rfl⟩ := of_withConst_eq_ok hk
    rw [← hn] at hw
    exact ⟨hw, rfl⟩
  -- one point: PISZERO, PDBL, PMUL, PONCURVE, KEYGEN, SIGN
  case h_19 hop | h_21 hop | h_23 hop | h_24 hop | h_25 hop | h_27 hop =>
    obtain ⟨hk, hw⟩ := of_formatR_eq_ok hop h
    obtain ⟨p, hp, hk⟩ := of_withPair_eq_ok hk
    cases hk
    rw [← hp] at hw
    exact ⟨hw, rfl⟩
  -- two points: PCOPY, PADD, ECDH, VERIFY
  case h_20 hop | h_22 hop | h_26 hop | h_28 hop =>
    obtain ⟨hk, hw⟩ := of_formatR_eq_ok hop h
    obtain ⟨p, hp, hk⟩ := of_withPair_eq_ok hk
    obtain ⟨q, hq, hk⟩ := of_withPair_eq_ok hk
    cases hk
    rw [← hp, ← hq] at hw
    exact ⟨hw, rfl⟩
  -- no assigned opcode
  case h_29 => cases h

/-- Checks 1 to 5 of R92 pass exactly the words of the commands with their immediate in range. -/
theorem decode_eq_ok_iff {c : Curve} {w : Word} {i : Instr} :
    decode c w = .ok i ↔ encode i = w ∧ i.immInRange c = true := by
  constructor
  · exact encode_of_decode_eq_ok
  · rintro ⟨rfl, himm⟩
    exact decode_encode himm

/-! The three verdicts (30_encoding.md R92). -/

theorem verdict_of_decode_eq_ok {c : Curve} {w : Word} {i : Instr} (h : decode c w = .ok i) :
    verdict c w = if i.aliased then .overlap else .legal i := by
  simp [verdict, h]

theorem verdict_of_decode_eq_error {c : Curve} {w : Word} {e : Illegal} (h : decode c w = .error e) :
    verdict c w = .illegal := by
  simp [verdict, h]

theorem verdict_eq_legal_iff {c : Curve} {w : Word} {i : Instr} :
    verdict c w = .legal i ↔ encode i = w ∧ i.wellFormed c := by
  rw [Instr.wellFormed, ← and_assoc, ← decode_eq_ok_iff]
  cases hd : decode c w with
  | error e => simp [verdict_of_decode_eq_error hd]
  | ok j =>
    rw [verdict_of_decode_eq_ok hd]
    constructor
    · intro h
      split at h
      · cases h
      · next hj =>
        cases h
        exact ⟨rfl, Bool.eq_false_iff.2 hj⟩
    · rintro ⟨⟨⟩, hi⟩
      exact if_neg (Bool.eq_false_iff.1 hi)

theorem verdict_eq_overlap_iff {c : Curve} {w : Word} :
    verdict c w = .overlap ↔ ∃ i, encode i = w ∧ i.immInRange c = true ∧ i.aliased = true := by
  simp only [← and_assoc, ← decode_eq_ok_iff]
  cases hd : decode c w with
  | error e => simp [verdict_of_decode_eq_error hd]
  | ok j => simp [verdict_of_decode_eq_ok hd]

theorem verdict_eq_illegal_iff {c : Curve} {w : Word} :
    verdict c w = .illegal ↔ ∀ i, encode i = w → i.immInRange c = false := by
  have hno : (∀ i, encode i = w → i.immInRange c = false) ↔ ∀ i, decode c w ≠ .ok i := by
    simp [decode_eq_ok_iff]
  rw [hno]
  cases hd : decode c w with
  | error e => simp [verdict_of_decode_eq_error hd]
  | ok j => simp [verdict_of_decode_eq_ok hd, ite_eq_iff]

/-- Settles O5: the word of a well-formed command passes the six checks as that command. -/
theorem encodedCommandIsLegal : Obligations.EncodedCommandIsLegal := by
  intro c i hi
  exact verdict_eq_legal_iff.2 ⟨rfl, hi⟩

/-- Settles O6: the six checks pass a word only as the command it encodes. -/
theorem legalWordIsTheEncoding : Obligations.LegalWordIsTheEncoding := by
  intro c w i h
  exact verdict_eq_legal_iff.1 h

end Sys2Proof
end

section
/-! The words the decoder rejects (30_encoding.md R87 to R91), each read off the encoder: no command has such a
word, or only one whose immediate is out of range or whose registers overlap. -/

namespace Sys2Proof

/-- A word that encodes no command is ILLEGAL. -/
theorem verdict_illegal_of_forall_ne {c : Curve} {w : Word} (h : ∀ i, encode i ≠ w) :
    verdict c w = .illegal :=
  verdict_eq_illegal_iff.2 fun i hi => absurd hi (h i)

/-- The assigned opcodes (30_encoding.md R84). -/
theorem opField_encode_assigned (i : Instr) :
    (opField (encode i)).toNat ≤ 0x0A ∨
      (0x10 ≤ (opField (encode i)).toNat ∧ (opField (encode i)).toNat ≤ 0x16) ∨
      (0x20 ≤ (opField (encode i)).toNat ∧ (opField (encode i)).toNat ≤ 0x25) ∨
      (0x30 ≤ (opField (encode i)).toNat ∧ (opField (encode i)).toNat ≤ 0x33) := by
  cases i <;> simp [encode]

/-- Settles O8: every command has an assigned opcode. -/
theorem unassignedOpcodesAreIllegal : Obligations.UnassignedOpcodesAreIllegal := by
  intro c w hop
  refine verdict_illegal_of_forall_ne ?_
  rintro i rfl
  have := opField_encode_assigned i
  omega

/-! The reserved high bits (30_encoding.md R87). -/

@[simp] theorem highI_wordR (op : BitVec 8) (a b c d : BitVec 4) : highI (wordR op a b c d) = 0 := by
  apply BitVec.eq_of_getLsbD_eq
  intro i hi
  rw [highI, BitVec.getLsbD_extractLsb',
    getLsbD_of_top_eq_zero (by decide) (highR_wordR op a b c d) (by omega)]
  simp

theorem highI_encode (i : Instr) : highI (encode i) = 0 := by
  cases i <;> simp [encode]

theorem highR_encode {i : Instr} (h : opField (encode i) ≠ 0x01#8 ∧ opField (encode i) ≠ 0x02#8 ∧
    opField (encode i) ≠ 0x09#8 ∧ opField (encode i) ≠ 0x0A#8) : highR (encode i) = 0 := by
  cases i with
  | getbit | clrbit | lshift | ldc => simp [encode] at h
  | _ => exact highR_wordR _ _ _ _ _

/-- Settles O9: the encoder leaves the reserved bits of each format 0. -/
theorem reservedHighBitsAreIllegal : Obligations.ReservedHighBitsAreIllegal := by
  intro c w
  constructor
  · intro _ hhigh
    refine verdict_illegal_of_forall_ne ?_
    rintro i rfl
    exact hhigh (highI_encode i)
  · intro hop hhigh
    refine verdict_illegal_of_forall_ne ?_
    rintro i rfl
    exact hhigh (highR_encode hop)

/-! The point fields (30_encoding.md R89). -/

@[simp] theorem getElem_pairBits_zero (p : Pair) : (pairBits p)[0] = false := by
  revert p
  decide

theorem getLsbD_rdField_zero (w : Word) : (rdField w).getLsbD 0 = w.getLsbD 8 := by
  simp [rdField]

theorem getLsbD_rs1Field_zero (w : Word) : (rs1Field w).getLsbD 0 = w.getLsbD 12 := by
  simp [rs1Field]

theorem getLsbD_rs2Field_zero (w : Word) : (rs2Field w).getLsbD 0 = w.getLsbD 16 := by
  simp [rs2Field]

theorem getLsbD_rs3Field_zero (w : Word) : (rs3Field w).getLsbD 0 = w.getLsbD 20 := by
  simp [rs3Field]

/-- Settles O10: in each command of the opcodes named, the field is the even index of a pair. -/
theorem oddPointFieldsAreIllegal : Obligations.OddPointFieldsAreIllegal := by
  intro c w
  rw [← getLsbD_rdField_zero, ← getLsbD_rs1Field_zero, ← getLsbD_rs2Field_zero,
    ← getLsbD_rs3Field_zero]
  refine ⟨fun hop hodd => verdict_illegal_of_forall_ne ?_,
    fun hop hodd => verdict_illegal_of_forall_ne ?_, fun hop hodd => verdict_illegal_of_forall_ne ?_,
    fun hop hodd => verdict_illegal_of_forall_ne ?_⟩
  · rintro i rfl
    cases i with
    | pcopy | pdbl | padd | pmul | keygen | ecdh | sign => simp [encode] at hodd
    | _ => simp [encode] at hop
  · rintro i rfl
    cases i with
    | piszero | pcopy | padd | poncurve | verify => simp [encode] at hodd
    | _ => simp [encode] at hop
  · rintro i rfl
    cases i with
    | ecdh => simp [encode] at hodd
    | _ => simp [encode] at hop
  · rintro i rfl
    cases i with
    | verify => simp [encode] at hodd
    | _ => simp [encode] at hop

/-! The immediate (30_encoding.md R90). -/

theorem verdict_illegal_of_bitIndex_ge_cap {c : Curve} {w : Word}
    (hop : opField w = 0x01#8 ∨ opField w = 0x02#8) (himm : c.cap ≤ (immField w).toNat) :
    verdict c w = .illegal := by
  rw [verdict_eq_illegal_iff]
  rintro i rfl
  cases i with
  | getbit | clrbit => simpa [encode, Instr.immInRange] using himm
  | _ => simp [encode] at hop

theorem verdict_illegal_of_constIndex_gt {c : Curve} {w : Word} (hop : opField w = 0x0A#8)
    (himm : 4 < (immField w).toNat) : verdict c w = .illegal := by
  refine verdict_illegal_of_forall_ne ?_
  rintro i rfl
  cases i with
  | ldc rd n => cases n <;> simp [encode, ConstName.index] at himm
  | _ => simp [encode] at hop

/-- A count of CAP or more shifts every bit out (41_bitvector.md R98). -/
theorem lshift_eq_zero_of_cap_le {c : Curve} {n : Nat} (h : c.cap ≤ n) (v : Vec) :
    lshift c v n = Vec.ZERO := by
  apply BitVec.eq_of_getLsbD_eq
  intro i _
  rw [getLsbD_lshift, BitVec.getLsbD_zero]
  by_cases hi : i < c.cap
  · simp [show ¬ n ≤ i by omega]
  · simp [hi]

/-- Settles O11: the two ranges above, and LSHIFT, whose immediate has none. -/
theorem immediateRanges : Obligations.ImmediateRanges := by
  intro c
  refine ⟨fun w => verdict_illegal_of_bitIndex_ge_cap, fun w => verdict_illegal_of_constIndex_gt,
    fun rd rs1 imm => ⟨verdict_eq_legal_iff.2 ⟨rfl, rfl, rfl⟩, ?_⟩⟩
  rintro hcount s rfl
  refine ⟨s.commit (.regs [(rd, lshift s.curve (s.opd rs1) imm.toNat)]), rfl, ?_⟩
  rw [lshift_eq_zero_of_cap_le hcount]
  simp

/-! The forbidden overlaps (30_encoding.md R91). -/

theorem Instr.aliased_iff (i : Instr) :
    i.aliased = true ↔ (∃ rd rs1, i = .fmul rd rs1 rd) ∨
      ∃ pd r, i = .keygen pd r ∧ (r = pd.rx ∨ r = pd.ry) := by
  cases i with
  | fmul => simp [Instr.aliased, eq_comm]
  | _ => simp [Instr.aliased]

/-- Settles O12: the overlapping commands are two, and neither has an immediate. -/
theorem forbiddenOverlapsAreAlias : Obligations.ForbiddenOverlapsAreAlias := by
  intro c w
  rw [verdict_eq_overlap_iff]
  constructor
  · rintro ⟨i, rfl, _, hi⟩
    rcases i.aliased_iff.1 hi with ⟨rd, rs1, rfl⟩ | ⟨pd, r, rfl, hr⟩
    · exact .inl ⟨rd, rs1, rfl⟩
    · exact .inr ⟨pd, r, rfl, hr⟩
  · rintro (⟨rd, rs1, rfl⟩ | ⟨pd, r, rfl, hr⟩)
    · exact ⟨.fmul rd rs1 rd, rfl, rfl, (Instr.aliased_iff _).2 (.inl ⟨rd, rs1, rfl⟩)⟩
    · exact ⟨.keygen pd r, rfl, rfl, (Instr.aliased_iff _).2 (.inr ⟨pd, r, rfl, hr⟩)⟩

/-- Settles O7: each word is the encoding of the command written beside it. -/
theorem exampleWordsDecode : Obligations.ExampleWordsDecode := by
  refine ⟨?_, ?_, ?_, ?_, ?_, ?_, ?_, ?_⟩ <;> exact verdict_eq_legal_iff.2 (by decide)

end Sys2Proof
end

section
/-! The identity, doubling and negation laws of the point functions, on every pair of vectors (43_point.md
R143). -/

namespace Sys2Proof

theorem isIdentity_iff (p : Point) : isIdentity p = true ↔ p = Point.O := by
  cases p
  simp [isIdentity, Point.O]

theorem pdbl_of_x_zero (c : Curve) {p : Point} (h : p.x = Vec.ZERO) : pdbl c p = some Point.O :=
  if_pos h

@[simp] theorem pdbl_O (c : Curve) : pdbl c Point.O = some Point.O := pdbl_of_x_zero c rfl

@[simp] theorem O_padd (c : Curve) (p : Point) : padd c Point.O p = some p := by
  by_cases hp : p = Point.O
  · rw [hp, padd_O]
  · simp [padd, isIdentity_iff, hp]

/-- Adding a point to itself doubles it, the identity included (43_point.md R140). -/
theorem padd_self (c : Curve) (p : Point) : padd c p p = pdbl c p := by
  by_cases hp : p = Point.O
  · rw [hp, padd_O, pdbl_O]
  · simp [padd, isIdentity_iff, hp]

/-- A point and its negative add to the identity: they have the same x, and they are one point only where
x = ZERO, which doubles to the identity too (30_encoding.md R94, 43_point.md R143). -/
theorem padd_negPoint (c : Curve) (p : Point) : padd c p (negPoint p) = some Point.O := by
  by_cases hx : p.x = Vec.ZERO
  · have hneg : negPoint p = p := by
      cases p
      simp_all [negPoint]
    rw [hneg, padd_self, pdbl_of_x_zero c hx]
  · have hp : ¬ isIdentity p = true := by simp [isIdentity, hx]
    have hneg : ¬ isIdentity (negPoint p) = true := by simp [isIdentity, negPoint, hx]
    have hsame : p.x = (negPoint p).x := rfl
    have hy : p.y ≠ (negPoint p).y := by
      intro h
      have hxor : Vec.ZERO ^^^ p.y = p.x ^^^ p.y := BitVec.zero_xor.trans h
      exact hx ((BitVec.xor_left_inj p.y).1 hxor).symm
    rw [padd, if_neg hneg, if_neg hp, if_pos hsame, if_neg hy]

@[simp] theorem deg_zero : deg Vec.ZERO = 0 := if_pos rfl

@[simp] theorem deg_one : deg Vec.ONE = 1 := by decide +kernel

theorem pmul_zero (c : Curve) (p : Point) : pmul c p Vec.ZERO = some Point.O := by
  simp [pmul, pmulLoop]

theorem pmul_one (c : Curve) (p : Point) : pmul c p Vec.ONE = some p := by
  simp [pmul, pmulLoop]

/-- Settles O48: the seven laws above; none reads an inverse. -/
theorem pointIdentityLaws : Obligations.PointIdentityLaws := by
  intro c p
  exact ⟨padd_O c p, O_padd c p, padd_self c p, padd_negPoint c p, pmul_one c p, pmul_zero c p,
    pdbl_of_x_zero c⟩

end Sys2Proof
end

section
/-! The degree of a vector (41_bitvector.md R97): its bound on the bits, its top bit, and the source's scan. -/

namespace Sys2Proof

/-- A degree bounds the places of the set bits, and is the least that does (41_bitvector.md R97). -/
theorem deg_le_iff (v : Vec) (n : Nat) : deg v ≤ n ↔ ∀ i, n ≤ i → v.getLsbD i = false := by
  by_cases hv : v = Vec.ZERO
  · simp [hv]
  · have hne : v.toNat ≠ 0 := fun h => hv (BitVec.eq_of_toNat_eq (h.trans BitVec.toNat_zero.symm))
    rw [deg, if_neg hv, Nat.succ_le_iff, Nat.log2_lt hne]
    constructor
    · intro h i hi
      exact Nat.testBit_lt_two_pow (Nat.lt_of_lt_of_le h (Nat.pow_le_pow_right (by decide) hi))
    · exact Nat.lt_pow_two_of_testBit _

theorem getLsbD_of_deg_le {v : Vec} {i : Nat} (h : deg v ≤ i) : v.getLsbD i = false :=
  (deg_le_iff v i).1 h i le_rfl

theorem lt_deg_of_getLsbD {v : Vec} {i : Nat} (h : v.getLsbD i = true) : i < deg v := by
  by_contra hle
  rw [getLsbD_of_deg_le (Nat.le_of_not_lt hle)] at h
  cases h

/-- A set bit with none above it gives the degree. -/
theorem deg_eq_succ {v : Vec} {k : Nat} (hk : v.getLsbD k = true)
    (habove : ∀ i, k < i → v.getLsbD i = false) : deg v = k + 1 :=
  Nat.le_antisymm ((deg_le_iff v (k + 1)).2 habove) (lt_deg_of_getLsbD hk)

theorem deg_eq_zero_iff (v : Vec) : deg v = 0 ↔ v = Vec.ZERO := by
  constructor
  · intro h
    apply BitVec.eq_of_getLsbD_eq
    intro i _
    rw [getLsbD_of_deg_le (h ▸ Nat.zero_le i), BitVec.getLsbD_zero]
  · rintro rfl
    exact deg_zero

theorem deg_pos {v : Vec} (hv : v ≠ Vec.ZERO) : 0 < deg v :=
  Nat.pos_of_ne_zero fun h => hv ((deg_eq_zero_iff v).1 h)

/-- The top bit of a vector other than ZERO stands just below its degree. -/
theorem getLsbD_deg_sub_one {v : Vec} (hv : v ≠ Vec.ZERO) : v.getLsbD (deg v - 1) = true := by
  have hpos := deg_pos hv
  by_contra hbit
  have hle : deg v ≤ deg v - 1 := by
    refine (deg_le_iff v _).2 fun i hi => ?_
    rcases Nat.eq_or_lt_of_le hi with rfl | hlt
    · exact Bool.eq_false_iff.2 hbit
    · exact getLsbD_of_deg_le (by omega)
  omega

theorem deg_le_cap {c : Curve} {v : Vec} (hv : v.fits c) : deg v ≤ c.cap :=
  (deg_le_iff v c.cap).2 ((Vec.fits_iff c v).1 hv)

/-! The scan (41_bitvector.md R97). -/

/-- The scan of a nonzero word finds its highest set bit. -/
theorem bitScan_eq_succ {x : Word} (hx : x ≠ 0) {n : Nat} (hn : ∀ i, n ≤ i → x.getLsbD i = false) :
    ∃ k, bitScan x n = k + 1 ∧ x.getLsbD k = true ∧ ∀ i, k < i → x.getLsbD i = false := by
  induction n with
  | zero => exact absurd (BitVec.eq_of_getLsbD_eq fun i _ => by simp [hn i (Nat.zero_le i)]) hx
  | succ n ih =>
    cases hbit : x.getLsbD n with
    | true => exact ⟨n, by simp [bitScan, hbit], hbit, hn⟩
    | false =>
      have hn' : ∀ i, n ≤ i → x.getLsbD i = false := by
        intro i hi
        rcases Nat.eq_or_lt_of_le hi with rfl | hlt
        · exact hbit
        · exact hn i hlt
      simpa [bitScan, hbit] using ih hn'

/-- The scan from word `n - 1` down gives the degree of a vector that has no bit above those words. -/
theorem wordScan_eq_deg (v : Vec) {n : Nat} (hn : deg v ≤ 32 * n) : wordScan v n = deg v := by
  induction n with
  | zero => exact (Nat.le_zero.1 hn).symm
  | succ n ih =>
    have hword : ∀ i, 32 * n ≤ i → i < 32 * (n + 1) →
        v.getLsbD i = (getWord v n).getLsbD (i - 32 * n) := by
      intro i hlo hhi
      rw [getLsbD_getWord v n (by omega), Nat.add_sub_cancel' hlo]
    by_cases hzero : getWord v n = 0
    · rw [wordScan, if_pos hzero]
      refine ih ((deg_le_iff v _).2 fun i hi => ?_)
      rcases Nat.lt_or_ge i (32 * (n + 1)) with hlt | hge
      · rw [hword i hi hlt, hzero, BitVec.ofNat_eq_ofNat, BitVec.getLsbD_zero]
      · exact getLsbD_of_deg_le (hn.trans hge)
    · obtain ⟨k, hscan, hk, habove⟩ := bitScan_eq_succ hzero fun i => BitVec.getLsbD_of_ge _ i
      have hk32 : k < 32 := BitVec.lt_of_getLsbD hk
      rw [wordScan, if_neg hzero, hscan, ← Nat.add_assoc]
      symm
      refine deg_eq_succ ((getLsbD_getWord v n hk32).symm.trans hk) fun i hi => ?_
      rcases Nat.lt_or_ge i (32 * (n + 1)) with hlt | hge
      · rw [hword i (by omega) hlt]
        exact habove _ (by omega)
      · exact getLsbD_of_deg_le (hn.trans hge)

theorem degScan_eq_deg {c : Curve} {v : Vec} (hv : v.fits c) : degScan c v = deg v :=
  wordScan_eq_deg v (deg_le_cap hv)

/-- Settles O1: the bits at and above the degree, its bound, and the scan, each by its lemma. -/
theorem degreeIsIndexOfHighestSetBit : Obligations.DegreeIsIndexOfHighestSetBit := by
  intro c v hv
  exact ⟨(deg_eq_zero_iff v).2, fun hne => ⟨deg_pos hne, getLsbD_deg_sub_one hne⟩,
    fun _ => getLsbD_of_deg_le, deg_le_cap hv, degScan_eq_deg hv⟩

end Sys2Proof
end

section
/-! The shift and the single bits of a vector (41_bitvector.md R98, R99). -/

namespace Sys2Proof

/-- The shift multiplies by a power of two and drops what leaves the vector (41_bitvector.md R98). -/
theorem toNat_lshift (c : Curve) (v : Vec) (n : Nat) :
    (lshift c v n).toNat = v.toNat * 2 ^ n % 2 ^ c.cap := by
  apply Nat.eq_of_testBit_eq
  intro i
  rw [Nat.testBit_mod_two_pow, Nat.testBit_mul_two_pow, BitVec.testBit_toNat, getLsbD_lshift,
    BitVec.testBit_toNat, Bool.and_assoc]

theorem lshift_zero {c : Curve} {v : Vec} (hv : v.fits c) : lshift c v 0 = v := by
  apply BitVec.eq_of_toNat_eq
  rw [toNat_lshift, Nat.pow_zero, Nat.mul_one, Nat.mod_eq_of_lt hv]

theorem lshift_lshift (c : Curve) (v : Vec) (n k : Nat) :
    lshift c (lshift c v n) k = lshift c v (n + k) := by
  apply BitVec.eq_of_toNat_eq
  rw [toNat_lshift, toNat_lshift, toNat_lshift, Nat.mod_mul_mod, Nat.mul_assoc, ← Nat.pow_add]

/-- A shift that loses no bit adds its count to the degree. -/
theorem deg_lshift {c : Curve} {v : Vec} {n : Nat} (hv : v ≠ Vec.ZERO) (hfit : deg v + n ≤ c.cap) :
    deg (lshift c v n) = deg v + n := by
  have hpos := deg_pos hv
  have htop : (lshift c v n).getLsbD (deg v - 1 + n) = true := by
    rw [getLsbD_lshift, Nat.add_sub_cancel, getLsbD_deg_sub_one hv]
    simp
    omega
  have habove : ∀ i, deg v - 1 + n < i → (lshift c v n).getLsbD i = false := by
    intro i hi
    rw [getLsbD_lshift, getLsbD_of_deg_le (by omega), Bool.and_false]
  rw [deg_eq_succ htop habove]
  omega

/-- Settles O2: the product, and its values at the count 0 and at the counts of CAP and above. -/
theorem lshiftMultipliesByPowerOfTwo : Obligations.LshiftMultipliesByPowerOfTwo := by
  intro c v n
  exact ⟨toNat_lshift c v n, lshift_zero, fun hn => lshift_eq_zero_of_cap_le hn v⟩

theorem getBit_iff (v : Vec) (i : Nat) : getBit v i = true ↔ v.toNat / 2 ^ i % 2 = 1 := by
  rw [getBit, ← BitVec.testBit_toNat, Nat.testBit_eq_decide_div_mod_eq, decide_eq_true_iff]

theorem getLsbD_clearBit_self (v : Vec) (i : Nat) : (clearBit v i).getLsbD i = false := by
  rcases Nat.lt_or_ge i 576 with hlt | hge
  · simp [clearBit, hlt]
  · exact BitVec.getLsbD_of_ge _ i hge

theorem getLsbD_clearBit_ne (v : Vec) {i j : Nat} (h : j ≠ i) :
    (clearBit v i).getLsbD j = v.getLsbD j := by
  rcases Nat.lt_or_ge j 576 with hlt | hge
  · rcases Nat.lt_or_gt_of_ne h with hji | hij
    · simp [clearBit, hlt, hji]
    · simp [clearBit, hlt, show j - i ≠ 0 by omega]
  · rw [BitVec.getLsbD_of_ge _ j hge, BitVec.getLsbD_of_ge _ j hge]

/-- Settles O3: bit `i` read, bit `i` cleared, and the words whose index lies outside the vector. -/
theorem bitIsReadAndCleared : Obligations.BitIsReadAndCleared := by
  intro c
  exact ⟨fun v i _ => ⟨getBit_iff v i, getLsbD_clearBit_self v i, fun _ => getLsbD_clearBit_ne v⟩,
    fun _ => verdict_illegal_of_bitIndex_ge_cap⟩

end Sys2Proof
end

section
/-! What a completion leaves (60_exceptions.md R172, R178), and the commands of the BitVector family
(41_bitvector.md R104 to R115). -/

namespace Sys2Proof.Machine

/-- A commit leaves what the rules say a completion leaves. -/
theorem State.commit_completed (s : State) (r : CmdResult) :
    Completed s (s.commit r) (s.setRegs r.writes).reg (r.res.getD s.res) r.pstat where
  regs := s.commit_reg r
  res := rfl
  pstat := rfl
  busy := rfl
  done := rfl
  pending := rfl
  err := s.commit_err r
  ecode := s.commit_ecode r
  finfo := s.commit_finfo r
  cmd := s.commit_cmd r
  ctrl := s.commit_ctrl r
  curve := s.commit_curve r
  inputs := s.commit_inputs r
  rdata := s.commit_rdata r

theorem State.reg_setReg_eq_update (s : State) (r : Reg) (v : Vec) :
    (s.setReg r v).reg = Function.update s.reg r v := by
  funext q
  rw [State.reg_setReg, Function.update_apply]

/-- A truth value in RES (10_state.md R34). -/
theorem boolWord_eq_ite (b : Bool) : boolWord b = if b then 1 else 0 := by
  cases b <;> rfl

section
variable {i : Instr} {s : State}

/-- A command with results completes with them. -/
theorem exec_completes {r : CmdResult} (h : cmdResult i s.curve s.ctrl.cofv s.opd = some r) :
    ∃ t, exec i s = .next t ∧
      Completed s t (s.setRegs r.writes).reg (r.res.getD s.res) r.pstat :=
  ⟨s.commit r, exec_of_cmdResult h, s.commit_completed r⟩

/-- A command whose result is one register completes with it there. -/
theorem exec_completes_reg {rd : Reg} {v : Vec}
    (h : cmdResult i s.curve s.ctrl.cofv s.opd = some (.regs [(rd, v)])) :
    ∃ t, exec i s = .next t ∧ Completed s t (s.with1 rd v) s.res .ok := by
  rw [State.with1, ← State.reg_setReg_eq_update]
  exact exec_completes h

/-- A command whose result is a word completes with it in RES. -/
theorem exec_completes_scalar {v : Word}
    (h : cmdResult i s.curve s.ctrl.cofv s.opd = some (.scalar v)) :
    ∃ t, exec i s = .next t ∧ Completed s t s.reg v .ok :=
  exec_completes h

/-- A command whose result is a truth value completes with it in RES. -/
theorem exec_completes_bool {p : Prop} [Decidable p] {b : Bool} (hb : b = true ↔ p)
    (h : cmdResult i s.curve s.ctrl.cofv s.opd = some (.scalar (boolWord b))) :
    ∃ t, exec i s = .next t ∧ Completed s t s.reg (if p then 1 else 0) .ok := by
  rw [← if_congr hb rfl rfl, ← boolWord_eq_ite]
  exact exec_completes_scalar h

end

/-- SWAP leaves the first register's operand in the second and the second's in the first
(41_bitvector.md R108). -/
theorem exec_swap_completes (s : State) (rd rs1 : Reg) :
    ∃ t, exec (.swap rd rs1) s = .next t ∧
      Completed s t (Function.update (s.with1 rd (s.opd rs1)) rs1 (s.opd rd)) s.res .ok := by
  rw [State.with1, ← State.reg_setReg_eq_update, ← State.reg_setReg_eq_update]
  exact exec_completes (i := .swap rd rs1) rfl

/-- Settles O52: the results of each command, committed. -/
theorem bitVectorCommandsComplete : Obligations.BitVectorCommandsComplete := by
  intro s rd rs1 rs2 imm n
  refine ⟨?nop, ?getbit, ?clrbit, ?copy, exec_swap_completes s rd rs1, ?equal, ?iszero, ?setzero,
    ?degree, ?lshift, ?ldc⟩
  case nop => exact exec_completes (i := .nop) rfl
  case clrbit | copy | setzero | lshift | ldc => exact exec_completes_reg rfl
  case getbit => exact exec_completes_bool Iff.rfl rfl
  case degree => exact exec_completes_scalar rfl
  case equal | iszero => exact exec_completes_bool beq_iff_eq rfl

/-! The laws of EQUAL and SWAP (41_bitvector.md R115). -/

theorem exec_equal_self (s : State) (a : Reg) : ∃ t, exec (.equal a a) s = .next t ∧ t.res = 1 := by
  obtain ⟨t, ht, hdone⟩ :=
    exec_completes_bool (i := .equal a a) (s := s) (iff_true_intro (beq_self_eq_true (s.opd a))) rfl
  exact ⟨t, ht, hdone.res⟩

theorem exec_equal_comm (s : State) (a b : Reg) : exec (.equal a b) s = exec (.equal b a) s := by
  have hcomm : (s.opd a == s.opd b) = (s.opd b == s.opd a) := BEq.comm
  rw [exec_eq_finish, exec_eq_finish, cmdResult, cmdResult, hcomm]

theorem State.opd_of_snapshot_eq {s : State} (h : s.snapshot = s.R) (r : Reg) : s.opd r = s.reg r := by
  rw [State.opd, h, State.reg]

/-- Where the snapshot is the registers, SWAP exchanges two of them and its own snapshot is the registers
again. -/
theorem exec_swap_reg {s t : State} {a b : Reg} (hs : s.snapshot = s.R)
    (h : exec (.swap a b) s = .next t) :
    t.snapshot = t.R ∧ ∀ r, t.reg r = s.reg (Equiv.swap a b r) := by
  obtain ⟨t', ht', hdone⟩ := exec_swap_completes s a b
  cases h.symm.trans ht'
  refine ⟨State.snapshot_of_none hdone.pending, fun r => ?_⟩
  rw [hdone.regs, State.with1, State.opd_of_snapshot_eq hs, State.opd_of_snapshot_eq hs]
  by_cases hb : r = b
  · rw [hb, Function.update_self, Equiv.swap_apply_right]
  · rw [Function.update_of_ne hb]
    by_cases ha : r = a
    · rw [ha, Function.update_self, Equiv.swap_apply_left]
    · rw [Function.update_of_ne ha, Equiv.swap_apply_of_ne_of_ne ha hb]

/-- SWAP twice restores every register: an exchange is its own inverse. -/
theorem exec_swap_swap {s t u : State} {a b : Reg} (hs : s.snapshot = s.R)
    (ht : exec (.swap a b) s = .next t) (hu : exec (.swap a b) t = .next u) (r : Reg) :
    u.reg r = s.reg r := by
  obtain ⟨htsnap, htreg⟩ := exec_swap_reg hs ht
  obtain ⟨_, hureg⟩ := exec_swap_reg htsnap hu
  rw [hureg, htreg, Equiv.swap_apply_self]

/-- Settles O4: the laws of the degree and the shift, of EQUAL and of SWAP. -/
theorem bitVectorLaws : Obligations.BitVectorLaws := by
  intro c v
  exact ⟨deg_eq_zero_iff v, fun _ _ => deg_lshift, lshift_lshift c v, fun _ => lt_deg_of_getLsbD,
    fun a b s => ⟨exec_equal_self s a, exec_equal_comm s a b⟩,
    fun _ _ _ _ _ hs ht hu => exec_swap_swap hs ht hu⟩

end Sys2Proof.Machine
end

section
/-! The binary polynomial of a number and of a vector (00_scope.md R21): the operations on bits are the
operations of GF(2)[t]. -/

namespace Sys2Proof

open Polynomial

theorem coeff_sum_bits (b : ℕ → Bool) (n i : ℕ) :
    (∑ j ∈ Finset.range n, if b j then (X : (ZMod 2)[X]) ^ j else 0).coeff i =
      if i < n ∧ b i then 1 else 0 := by
  have hterm : ∀ j, (if b j then (X : (ZMod 2)[X]) ^ j else 0).coeff i =
      if i = j then (if b i then 1 else 0) else 0 := by
    intro j
    by_cases hij : i = j
    · subst hij
      cases b i <;> simp
    · cases b j <;> simp [hij, coeff_X_pow]
  rw [finsetSum_coeff, Finset.sum_congr rfl fun j _ => hterm j, Finset.sum_ite_eq, ← ite_and]
  simp only [Finset.mem_range]

/-- The binary polynomial whose coefficients are the bits of a number; irreducible, so that the unifier does
not expand it. `toPoly_eq_vecPoly` ties it to the model. -/
@[irreducible] noncomputable def bitPoly (n : ℕ) : (ZMod 2)[X] :=
  ∑ i ∈ Finset.range n.size, if n.testBit i then X ^ i else 0

@[simp] theorem coeff_bitPoly (n i : ℕ) : (bitPoly n).coeff i = if n.testBit i then 1 else 0 := by
  rw [bitPoly, coeff_sum_bits]
  refine if_congr (and_iff_right_of_imp fun hbit => ?_) rfl rfl
  by_contra hge
  rw [Nat.testBit_lt_two_pow (Nat.size_le.1 (Nat.le_of_not_lt hge))] at hbit
  cases hbit

@[simp] theorem bitPoly_zero : bitPoly 0 = 0 := by
  simp [bitPoly]

@[simp] theorem bitPoly_one : bitPoly 1 = 1 := by
  simp [bitPoly]

/-- Exclusive or is the sum of GF(2)[t]. -/
@[simp] theorem bitPoly_xor (a b : ℕ) : bitPoly (a ^^^ b) = bitPoly a + bitPoly b := by
  ext i
  rw [coeff_add, coeff_bitPoly, coeff_bitPoly, coeff_bitPoly, Nat.testBit_xor]
  cases a.testBit i <;> cases b.testBit i <;> decide

/-- A left shift is the product with a power of t. -/
@[simp] theorem bitPoly_shiftLeft (a k : ℕ) : bitPoly (a <<< k) = X ^ k * bitPoly a := by
  ext i
  rw [coeff_X_pow_mul', coeff_bitPoly, coeff_bitPoly, Nat.testBit_shiftLeft]
  by_cases hk : k ≤ i <;> simp [hk]

/-- A number cut at bit `k`. -/
theorem bitPoly_split (a k : ℕ) : bitPoly a = bitPoly (a % 2 ^ k) + X ^ k * bitPoly (a >>> k) := by
  rw [← bitPoly_shiftLeft, ← bitPoly_xor]
  congr 1
  apply Nat.eq_of_testBit_eq
  intro i
  rw [Nat.testBit_xor, Nat.testBit_mod_two_pow, Nat.testBit_shiftLeft, Nat.testBit_shiftRight]
  rcases Nat.lt_or_ge i k with hlt | hge
  · simp [hlt, Nat.not_le.2 hlt]
  · simp [hge, Nat.not_lt.2 hge]

/-! The polynomial of a vector. -/

/-- The polynomial of a vector, as that of its number; `toPoly_eq_vecPoly` ties it to the model's `toPoly`. -/
noncomputable def vecPoly (v : Vec) : (ZMod 2)[X] := bitPoly v.toNat

@[simp] theorem coeff_vecPoly (v : Vec) (i : ℕ) :
    (vecPoly v).coeff i = if v.getLsbD i then 1 else 0 := by
  rw [vecPoly, coeff_bitPoly, BitVec.testBit_toNat]

theorem toPoly_eq_vecPoly (v : Vec) : toPoly v = vecPoly v := by
  have hsum : toPoly v = ∑ j ∈ Finset.range 576, if v.getLsbD j then (X : (ZMod 2)[X]) ^ j else 0 :=
    List.foldr_map.symm
  ext i
  rw [hsum, coeff_sum_bits, coeff_vecPoly]
  exact if_congr (and_iff_right_of_imp BitVec.lt_of_getLsbD) rfl rfl

theorem getLsbD_ONE (i : ℕ) : Vec.ONE.getLsbD i = decide (i = 0) := by
  rw [BitVec.getLsbD_one, decide_eq_true (show 0 < 576 by decide), Bool.true_and]

@[simp] theorem vecPoly_zero : vecPoly Vec.ZERO = 0 := by
  rw [vecPoly, BitVec.toNat_zero, bitPoly_zero]

@[simp] theorem vecPoly_one : vecPoly Vec.ONE = 1 := by
  ext i
  rw [coeff_vecPoly, getLsbD_ONE, coeff_one]
  simp only [decide_eq_true_eq]

@[simp] theorem vecPoly_xor (a b : Vec) : vecPoly (a ^^^ b) = vecPoly a + vecPoly b := by
  rw [vecPoly, BitVec.toNat_xor, bitPoly_xor, vecPoly, vecPoly]

theorem vecPoly_eq_zero_iff (v : Vec) : vecPoly v = 0 ↔ v = Vec.ZERO := by
  constructor
  · intro h
    apply BitVec.eq_of_getLsbD_eq
    intro i _
    have hi := coeff_vecPoly v i
    rw [h, coeff_zero] at hi
    cases hbit : v.getLsbD i with
    | false => rw [BitVec.getLsbD_zero]
    | true => simp [hbit] at hi
  · rintro rfl
    exact vecPoly_zero

/-- A shift that loses no bit multiplies by a power of t. -/
theorem vecPoly_lshift {c : Curve} {v : Vec} {n : ℕ} (hfit : deg v + n ≤ c.cap) :
    vecPoly (lshift c v n) = X ^ n * vecPoly v := by
  ext i
  rw [coeff_X_pow_mul', coeff_vecPoly, coeff_vecPoly, getLsbD_lshift]
  by_cases hn : n ≤ i
  · by_cases hi : i < c.cap
    · simp [hn, hi]
    · simp [getLsbD_of_deg_le (show deg v ≤ i - n by omega)]
  · simp [hn]

/-- Dropping the low bit divides by t. -/
theorem vecPoly_ushiftRight (v : Vec) (i : ℕ) :
    vecPoly (v >>> i) = (if v.getLsbD i then 1 else 0) + X * vecPoly (v >>> (i + 1)) := by
  ext k
  cases k with
  | zero => cases hbit : v.getLsbD i <;> simp [hbit]
  | succ k =>
    rw [coeff_add, coeff_X_mul, coeff_vecPoly, coeff_vecPoly, BitVec.getLsbD_ushiftRight,
      BitVec.getLsbD_ushiftRight, show i + (k + 1) = i + 1 + k by omega]
    cases v.getLsbD i <;> simp [coeff_one]

/-- `deg` counts the bits; the degree of the polynomial is one less (41_bitvector.md R97). -/
theorem natDegree_vecPoly (v : Vec) : (vecPoly v).natDegree = deg v - 1 := by
  by_cases hv : v = Vec.ZERO
  · rw [hv, vecPoly_zero, deg_zero, natDegree_zero]
  · have hpos := deg_pos hv
    refine natDegree_eq_of_le_of_coeff_ne_zero (natDegree_le_iff_coeff_eq_zero.2 fun i hi => ?_) ?_
    · simp [getLsbD_of_deg_le (show deg v ≤ i by omega)]
    · simp [getLsbD_deg_sub_one hv]

/-! The degree of a sum and of a shift. -/

theorem ne_zero_of_deg_pos {v : Vec} (h : 0 < deg v) : v ≠ Vec.ZERO := fun h0 =>
  h.ne' ((deg_eq_zero_iff v).2 h0)

theorem deg_xor_le {a b : Vec} {n : ℕ} (ha : deg a ≤ n) (hb : deg b ≤ n) : deg (a ^^^ b) ≤ n := by
  rw [deg_le_iff] at *
  intro i hi
  rw [BitVec.getLsbD_xor, ha i hi, hb i hi, Bool.false_xor]

/-- Two vectors of one degree cancel their top bits. -/
theorem deg_xor_lt {a b : Vec} (hab : deg a = deg b) (ha : a ≠ Vec.ZERO) :
    deg (a ^^^ b) < deg a := by
  have hpos := deg_pos ha
  have hb : b ≠ Vec.ZERO := ne_zero_of_deg_pos (hab ▸ hpos)
  suffices deg (a ^^^ b) ≤ deg a - 1 by omega
  refine (deg_le_iff _ _).2 fun i hi => ?_
  rw [BitVec.getLsbD_xor]
  rcases Nat.eq_or_lt_of_le hi with rfl | hlt
  · rw [getLsbD_deg_sub_one ha, hab, getLsbD_deg_sub_one hb, Bool.true_xor, Bool.not_true]
  · rw [getLsbD_of_deg_le (show deg a ≤ i by omega), getLsbD_of_deg_le (show deg b ≤ i by omega),
      Bool.false_xor]

theorem deg_lshift_le (c : Curve) (v : Vec) (n : ℕ) : deg (lshift c v n) ≤ deg v + n := by
  refine (deg_le_iff _ _).2 fun i hi => ?_
  rw [getLsbD_lshift, getLsbD_of_deg_le (by omega), Bool.and_false]

/-- Only ZERO and ONE have a degree below 2. -/
theorem two_le_deg {v : Vec} (h0 : v ≠ Vec.ZERO) (h1 : v ≠ Vec.ONE) : 2 ≤ deg v := by
  have hpos := deg_pos h0
  by_contra hlt
  refine h1 (BitVec.eq_of_getLsbD_eq fun i _ => ?_)
  cases i with
  | zero =>
    have htop := getLsbD_deg_sub_one h0
    rw [show deg v - 1 = 0 by omega] at htop
    rw [htop, getLsbD_ONE, decide_eq_true rfl]
  | succ i =>
    rw [getLsbD_of_deg_le (by omega), getLsbD_ONE, decide_eq_false i.succ_ne_zero]

theorem fits_iff_deg_le {c : Curve} {v : Vec} : v.fits c ↔ deg v ≤ c.cap := by
  rw [Vec.fits_iff, deg_le_iff]

end Sys2Proof
end

section
/-! Residues modulo the reducing polynomial f (00_scope.md R28): a reduced vector is determined by its
residue. -/

namespace Sys2Proof

open Polynomial

theorem deg_poly (c : Curve) : deg c.poly = c.m + 1 := by cases c <;> decide +kernel

theorem Curve.m_pos (c : Curve) : 0 < c.m := by cases c <;> decide

theorem poly_ne_zero (c : Curve) : c.poly ≠ Vec.ZERO := ne_zero_of_deg_pos (by rw [deg_poly]; omega)

theorem natDegree_poly (c : Curve) : (vecPoly c.poly).natDegree = c.m := by
  rw [natDegree_vecPoly, deg_poly, Nat.add_sub_cancel]

/-- The residue a vector represents modulo f. -/
noncomputable def residue (c : Curve) (v : Vec) : AdjoinRoot (vecPoly c.poly) := AdjoinRoot.mk _ (vecPoly v)

theorem congF_iff {c : Curve} {p q : (ZMod 2)[X]} :
    congF c p q ↔ AdjoinRoot.mk (vecPoly c.poly) p = AdjoinRoot.mk (vecPoly c.poly) q := by
  rw [congF, toPoly_eq_vecPoly, AdjoinRoot.mk_eq_mk]

section
variable (c : Curve)

@[simp] theorem residue_zero : residue c Vec.ZERO = 0 := by rw [residue, vecPoly_zero, map_zero]

@[simp] theorem residue_one : residue c Vec.ONE = 1 := by rw [residue, vecPoly_one, map_one]

@[simp] theorem residue_poly : residue c c.poly = 0 := AdjoinRoot.mk_self

@[simp] theorem residue_xor (a b : Vec) : residue c (a ^^^ b) = residue c a + residue c b := by
  rw [residue, vecPoly_xor, map_add, residue, residue]

end

section
variable {c : Curve}

theorem residue_lshift {v : Vec} {n : ℕ} (hfit : deg v + n ≤ c.cap) :
    residue c (lshift c v n) = AdjoinRoot.root _ ^ n * residue c v := by
  rw [residue, vecPoly_lshift hfit, map_mul, map_pow, AdjoinRoot.mk_X, residue]

/-- Adding a shift of f does not change the residue. -/
theorem residue_xor_lshift_poly (v : Vec) {n : ℕ} (hfit : c.m + 1 + n ≤ c.cap) :
    residue c (v ^^^ lshift c c.poly n) = residue c v := by
  rw [residue_xor, residue_lshift (deg_poly c ▸ hfit), residue_poly, mul_zero, add_zero]

/-- Dropping the low bit divides by t. -/
theorem residue_ushiftRight (v : Vec) (i : ℕ) :
    residue c (v >>> i) =
      (if v.getLsbD i then 1 else 0) + AdjoinRoot.root _ * residue c (v >>> (i + 1)) := by
  rw [residue, vecPoly_ushiftRight, map_add, map_mul, AdjoinRoot.mk_X, residue]
  split <;> simp

/-! Reduced vectors. -/

theorem reduced_zero : Vec.reduced c Vec.ZERO := by
  rw [Vec.reduced, deg_zero]
  exact Nat.zero_le _

theorem reduced_one : Vec.reduced c Vec.ONE := by
  rw [Vec.reduced, deg_one]
  exact c.m_pos

theorem reduced_xor {a b : Vec} (ha : a.reduced c) (hb : b.reduced c) : (a ^^^ b).reduced c :=
  deg_xor_le ha hb

theorem fits_of_reduced {v : Vec} (hv : v.reduced c) : v.fits c :=
  fits_iff_deg_le.2 (hv.trans (by have := c.m_lt_cap; omega))

/-- The only reduced multiple of f is ZERO. -/
theorem eq_zero_of_poly_dvd {v : Vec} (hv : v.reduced c) (hdvd : vecPoly c.poly ∣ vecPoly v) :
    v = Vec.ZERO := by
  refine by_contra fun hne => ?_
  have hle := natDegree_le_of_dvd hdvd fun h0 => hne ((vecPoly_eq_zero_iff v).1 h0)
  rw [natDegree_poly, natDegree_vecPoly] at hle
  have hred : deg v ≤ c.m := hv
  have hm := c.m_pos
  omega

theorem eq_of_residue_eq {a b : Vec} (ha : a.reduced c) (hb : b.reduced c)
    (h : residue c a = residue c b) : a = b := by
  have hsum : a ^^^ b = Vec.ZERO := by
    refine eq_zero_of_poly_dvd (reduced_xor ha hb) ?_
    rw [vecPoly_xor, ← CharTwo.sub_eq_add]
    exact AdjoinRoot.mk_eq_mk.1 h
  exact BitVec.xor_eq_zero_iff.1 hsum

end
end Sys2Proof
end

section
/-! The field functions xtime, fmul and fred (42_field.md R117, R122, R126), and their residues. -/

namespace Sys2Proof

open Polynomial

section
variable {c : Curve}

/-- The reduce step either leaves the shifted vector or adds f (42_field.md R117). -/
theorem xtime_eq (c : Curve) (v : Vec) :
    xtime c v = if (lshift c v 1).getLsbD c.m then lshift c v 1 ^^^ c.poly else lshift c v 1 := rfl

theorem reduced_xtime {v : Vec} (hv : v.reduced c) : (xtime c v).reduced c := by
  have hshift : deg (lshift c v 1) ≤ c.m + 1 := (deg_lshift_le c v 1).trans (Nat.succ_le_succ hv)
  rw [xtime_eq]
  split
  · next htop =>
    have hdeg : deg (lshift c v 1) = c.m + 1 := Nat.le_antisymm hshift (lt_deg_of_getLsbD htop)
    have hne : lshift c v 1 ≠ Vec.ZERO := ne_zero_of_deg_pos (by omega)
    have hlt := deg_xor_lt (hdeg.trans (deg_poly c).symm) hne
    rw [hdeg] at hlt
    exact Nat.le_of_lt_succ hlt
  · next htop =>
    refine (deg_le_iff _ _).2 fun i hi => ?_
    rcases Nat.eq_or_lt_of_le hi with rfl | hlt
    · exact Bool.eq_false_iff.2 htop
    · exact getLsbD_of_deg_le (hshift.trans hlt)

/-- The reduce step multiplies by t (42_field.md R117). -/
theorem residue_xtime {v : Vec} (hv : v.reduced c) :
    residue c (xtime c v) = AdjoinRoot.root _ * residue c v := by
  have hfit : deg v + 1 ≤ c.cap := by
    have hred : deg v ≤ c.m := hv
    have := c.m_lt_cap
    omega
  have hshift : residue c (lshift c v 1) = AdjoinRoot.root _ * residue c v := by
    rw [residue_lshift hfit, pow_one]
  rw [xtime_eq]
  split
  · rw [residue_xor, residue_poly, add_zero, hshift]
  · exact hshift

/-! The product. -/

theorem fmulLoop_succ (c : Curve) (y : Vec) (n i : ℕ) (tmp z : Vec) :
    fmulLoop c y (n + 1) i tmp z =
      fmulLoop c y n (i + 1) (xtime c tmp) (if y.getLsbD i then z ^^^ xtime c tmp else z) := rfl

theorem reduced_fmulLoop (y : Vec) (n i : ℕ) {tmp z : Vec} (htmp : tmp.reduced c) (hz : z.reduced c) :
    (fmulLoop c y n i tmp z).reduced c := by
  induction n generalizing i tmp z with
  | zero => exact hz
  | succ n ih =>
    rw [fmulLoop_succ]
    refine ih (i + 1) (reduced_xtime htmp) ?_
    split
    · exact reduced_xor hz (reduced_xtime htmp)
    · exact hz

/-- What the loop adds from bit `i` of `y` on: `tmp` is the left operand times t^(i-1). -/
theorem residue_fmulLoop {y : Vec} {n i : ℕ} (hy : deg y ≤ i + n) {tmp : Vec} (htmp : tmp.reduced c)
    (z : Vec) :
    residue c (fmulLoop c y n i tmp z) =
      residue c z + residue c tmp * (AdjoinRoot.root _ * residue c (y >>> i)) := by
  induction n generalizing i tmp z with
  | zero =>
    have hrest : y >>> i = Vec.ZERO := by
      apply BitVec.eq_of_getLsbD_eq
      intro k _
      rw [BitVec.getLsbD_ushiftRight, getLsbD_of_deg_le (by omega), BitVec.getLsbD_zero]
    rw [fmulLoop, hrest, residue_zero, mul_zero, mul_zero, add_zero]
  | succ n ih =>
    have hacc : residue c (if y.getLsbD i then z ^^^ xtime c tmp else z) =
        residue c z + residue c tmp * (AdjoinRoot.root _ * if y.getLsbD i then 1 else 0) := by
      split
      · rw [residue_xor, residue_xtime htmp]
        ring
      · rw [mul_zero, mul_zero, add_zero]
    rw [fmulLoop_succ, ih (by omega) (reduced_xtime htmp), hacc, residue_xtime htmp,
      residue_ushiftRight y i]
    ring

theorem reduced_fmul {x : Vec} (hx : x.reduced c) (y : Vec) : (fmul c x y).reduced c := by
  refine reduced_fmulLoop y _ _ hx ?_
  split
  · exact hx
  · exact reduced_zero

/-- The product of two reduced vectors is the product of their residues (42_field.md R129). -/
theorem residue_fmul {x y : Vec} (hx : x.reduced c) (hy : y.reduced c) :
    residue c (fmul c x y) = residue c x * residue c y := by
  have hm : 1 + (c.m - 1) = c.m := Nat.add_sub_cancel' c.m_pos
  have hstart : residue c (if y.getLsbD 0 then x else Vec.ZERO) =
      residue c x * if y.getLsbD 0 then 1 else 0 := by
    split
    · rw [mul_one]
    · rw [residue_zero, mul_zero]
  have hbits := residue_ushiftRight (c := c) y 0
  rw [BitVec.ushiftRight_zero] at hbits
  rw [fmul, residue_fmulLoop (hm.symm ▸ hy) hx, hstart, hbits]
  ring

/-- The loop reads the bits of `y` from `i` to `i + n - 1`. -/
theorem fmulLoop_congr {y y' : Vec} {n i : ℕ} (tmp z : Vec)
    (h : ∀ j, j < i + n → y.getLsbD j = y'.getLsbD j) :
    fmulLoop c y n i tmp z = fmulLoop c y' n i tmp z := by
  induction n generalizing i tmp z with
  | zero => rfl
  | succ n ih =>
    rw [fmulLoop_succ, fmulLoop_succ, h i (by omega)]
    exact ih _ _ fun j hj => h j (by omega)

/-- Where no bit from `i` on is set the loop adds nothing. -/
theorem fmulLoop_of_deg_le {y : Vec} {n i : ℕ} (tmp z : Vec) (h : deg y ≤ i) :
    fmulLoop c y n i tmp z = z := by
  induction n generalizing i tmp with
  | zero => rfl
  | succ n ih =>
    rw [fmulLoop_succ, getLsbD_of_deg_le h, if_neg Bool.false_ne_true]
    exact ih _ (h.trans i.le_succ)

/-- Two accumulators, each with or without the term `t`. -/
theorem xor_ite_xor (b b' : Bool) (z z' t : Vec) :
    (if b ^^ b' then z ^^^ z' ^^^ t else z ^^^ z') =
      (if b then z ^^^ t else z) ^^^ (if b' then z' ^^^ t else z') := by
  cases b with
  | false =>
    cases b' with
    | false => rfl
    | true => exact BitVec.xor_assoc z z' t
  | true =>
    cases b' with
    | false =>
      have hswap : z ^^^ z' ^^^ t = z ^^^ t ^^^ z' := by ac_rfl
      exact hswap
    | true =>
      have hcancel : z ^^^ z' = z ^^^ t ^^^ (z' ^^^ t) := by
        rw [show z ^^^ t ^^^ (z' ^^^ t) = z ^^^ z' ^^^ (t ^^^ t) by ac_rfl, BitVec.xor_self,
          BitVec.xor_zero]
      exact hcancel

theorem fmulLoop_xor (y w : Vec) (n i : ℕ) (tmp z z' : Vec) :
    fmulLoop c (y ^^^ w) n i tmp (z ^^^ z') =
      fmulLoop c y n i tmp z ^^^ fmulLoop c w n i tmp z' := by
  induction n generalizing i tmp z z' with
  | zero => rfl
  | succ n ih =>
    rw [fmulLoop_succ, fmulLoop_succ, fmulLoop_succ, ← ih, BitVec.getLsbD_xor, xor_ite_xor]

end
end Sys2Proof
end

section
/-! The laws of fmul (42_field.md R129). -/

namespace Sys2Proof

section
variable (c : Curve) (x y w : Vec)

/-- Bits of the right operand at m and above are not read (42_field.md R122). -/
theorem fmul_and_vmask : fmul c x (y &&& vmask c.m) = fmul c x y := by
  have hm : c.m ≤ 576 := by
    have := c.m_lt_cap
    have := c.cap_le
    omega
  have hpos := c.m_pos
  have hbits : ∀ j, j < c.m → (y &&& vmask c.m).getLsbD j = y.getLsbD j := by
    intro j hj
    rw [BitVec.getLsbD_and, getLsbD_vmask c.m j hm, decide_eq_true hj, Bool.and_true]
  rw [fmul, fmul, hbits 0 hpos]
  exact fmulLoop_congr x _ fun j hj => hbits j (by omega)

/-- The product is additive in its right operand (42_field.md R129). -/
theorem fmul_xor : fmul c x (y ^^^ w) = fmul c x y ^^^ fmul c x w := by
  have hstart := xor_ite_xor (y.getLsbD 0) (w.getLsbD 0) Vec.ZERO Vec.ZERO x
  simp only [BitVec.zero_xor] at hstart
  rw [fmul, fmul, fmul, ← fmulLoop_xor, ← hstart, BitVec.getLsbD_xor]

@[simp] theorem fmul_one : fmul c x Vec.ONE = x := by
  rw [fmul, fmulLoop_of_deg_le x _ deg_one.le, getLsbD_ONE, if_pos (decide_eq_true rfl)]

@[simp] theorem fmul_zero : fmul c x Vec.ZERO = Vec.ZERO := by
  rw [fmul, fmulLoop_of_deg_le x _ (deg_zero.le.trans zero_le_one), BitVec.getLsbD_zero,
    if_neg Bool.false_ne_true]

end

section
variable {c : Curve} {x y w : Vec}

theorem fmul_comm (hx : x.reduced c) (hy : y.reduced c) : fmul c x y = fmul c y x := by
  refine eq_of_residue_eq (reduced_fmul hx y) (reduced_fmul hy x) ?_
  rw [residue_fmul hx hy, residue_fmul hy hx, mul_comm]

theorem fmul_assoc (hx : x.reduced c) (hy : y.reduced c) (hw : w.reduced c) :
    fmul c (fmul c x y) w = fmul c x (fmul c y w) := by
  have hxy := reduced_fmul hx y
  have hyw := reduced_fmul hy w
  refine eq_of_residue_eq (reduced_fmul hxy w) (reduced_fmul hx _) ?_
  rw [residue_fmul hxy hw, residue_fmul hx hy, residue_fmul hx hyw, residue_fmul hy hw, mul_assoc]

end

/-- Settles O42: the reduce step and the loop of fmul, each by its residue. -/
theorem fmulIsTheFieldProduct : Obligations.FmulIsTheFieldProduct := by
  intro c x y hx hy
  refine ⟨reduced_xtime hx, ?_, reduced_fmul hx y, ?_⟩
  · rw [congF_iff, toPoly_eq_vecPoly, toPoly_eq_vecPoly, map_mul, AdjoinRoot.mk_X]
    exact residue_xtime hx
  · rw [congF_iff, toPoly_eq_vecPoly, toPoly_eq_vecPoly, toPoly_eq_vecPoly, map_mul]
    exact residue_fmul hx hy

/-- Settles O43: the laws above; those that hold of every operand speak of the loop, the others of
residues. -/
theorem fmulLaws : Obligations.FmulLaws := by
  intro c x y w
  exact ⟨fmul_comm, fmul_assoc, fmul_xor c x y w, fmul_one c x, fmul_zero c x,
    (fmul_and_vmask c x y).symm⟩

end Sys2Proof
end

section
/-! The full reduction (42_field.md R126, R131). -/

namespace Sys2Proof

/-- A turn of fred's loop clears the top bit and keeps the residue (42_field.md R126). -/
theorem fredLoop_turn {c : Curve} {v : Vec} (hv : v.fits c) (hdeg : c.m < deg v) :
    deg (v ^^^ lshift c c.poly (deg v - 1 - c.m)) < deg v ∧
    residue c (v ^^^ lshift c c.poly (deg v - 1 - c.m)) = residue c v := by
  have hcap : deg v ≤ c.cap := fits_iff_deg_le.1 hv
  have hshift : deg (lshift c c.poly (deg v - 1 - c.m)) = deg v := by
    rw [deg_lshift (poly_ne_zero c) (by rw [deg_poly]; omega), deg_poly]
    omega
  exact ⟨deg_xor_lt hshift.symm (ne_zero_of_deg_pos (by omega)), residue_xor_lshift_poly v (by omega)⟩

theorem fredLoop_spec {c : Curve} {fuel : ℕ} {v : Vec} (hv : v.fits c) (hfuel : deg v ≤ fuel) :
    (fredLoop c fuel v).reduced c ∧ residue c (fredLoop c fuel v) = residue c v := by
  induction fuel generalizing v with
  | zero => exact ⟨hfuel.trans (Nat.zero_le _), rfl⟩
  | succ fuel ih =>
    rw [fredLoop]
    split
    · next hdeg =>
      obtain ⟨hlt, hres⟩ := fredLoop_turn hv hdeg
      have hfits := Vec.fits_xor hv (Vec.fits_lshift c c.poly (deg v - 1 - c.m))
      obtain ⟨hred, hloop⟩ := ih hfits (Nat.le_of_lt_succ (hlt.trans_le hfuel))
      exact ⟨hred, hloop.trans hres⟩
    · next hdeg => exact ⟨Nat.le_of_not_lt hdeg, rfl⟩

section
variable {c : Curve} {v : Vec}

theorem reduced_fred (hv : v.fits c) : (fred c v).reduced c := (fredLoop_spec hv le_rfl).1

theorem residue_fred (hv : v.fits c) : residue c (fred c v) = residue c v :=
  (fredLoop_spec hv le_rfl).2

/-- fred(v) is the only reduced vector with the residue of v. -/
theorem fred_eq_of_residue_eq {u : Vec} (hv : v.fits c) (hu : u.reduced c)
    (h : residue c v = residue c u) : fred c v = u :=
  eq_of_residue_eq (reduced_fred hv) hu ((residue_fred hv).trans h)

end

/-- Settles O46: fred gives the one reduced vector of its residue. -/
theorem fredLaws : Obligations.FredLaws := by
  intro c v u hv hu
  have hred := reduced_fred hv
  refine ⟨hred, ?cong, ?idem, ?add, BitVec.xor_self⟩
  case cong =>
    rw [congF_iff, toPoly_eq_vecPoly, toPoly_eq_vecPoly]
    exact residue_fred hv
  case idem => exact fred_eq_of_residue_eq (fits_of_reduced hred) hred rfl
  case add =>
    refine fred_eq_of_residue_eq (Vec.fits_xor hv hu) (reduced_xor hred (reduced_fred hu)) ?_
    rw [residue_xor, residue_xor, residue_fred hv, residue_fred hu]

end Sys2Proof
end

section
/-! The inverse (42_field.md R124, R130): what every turn of finv's loop keeps, and how the loop ends. -/

namespace Sys2Proof

open Polynomial

/-- One turn of finv's loop, where deg v ≤ deg u, and the turns after it (42_field.md R124). -/
def finvTurn (c : Curve) (fuel : ℕ) (u v g z : Vec) : Option Vec :=
  finvLoop c fuel (u ^^^ lshift c v (deg u - deg v)) v g (z ^^^ lshift c g (deg u - deg v))

section
variable {c : Curve} {u v g z : Vec}

@[simp] theorem finvLoop_one (fuel : ℕ) : finvLoop c (fuel + 1) Vec.ONE v g z = some z := if_pos rfl

theorem finvLoop_zero (fuel : ℕ) : finvLoop c fuel Vec.ZERO v g z = none := by
  cases fuel with
  | zero => rfl
  | succ fuel =>
    have hne : Vec.ZERO ≠ Vec.ONE := fun h => absurd (deg_zero.symm.trans (h ▸ deg_one)) zero_ne_one
    rw [finvLoop, if_neg hne, if_pos (.inl rfl)]

/-- A turn works on (u, v) and (z, g), or, where deg u < deg v, on both pairs swapped. -/
theorem finvLoop_succ (fuel : ℕ) (hu1 : u ≠ Vec.ONE) (hu0 : u ≠ Vec.ZERO) (hv0 : v ≠ Vec.ZERO) :
    finvLoop c (fuel + 1) u v g z =
      if deg u < deg v then finvTurn c fuel v u z g else finvTurn c fuel u v g z := by
  rw [finvLoop, if_neg hu1, if_neg (not_or.2 ⟨hu0, hv0⟩)]
  rfl

/-- What finv's loop keeps, from the operand `x` on. The bounds say that no shift loses a bit: neither
coefficient grows past m + 2 bits together with the value of the other row. -/
structure FinvInv (c : Curve) (x u v g z : Vec) : Prop where
  fits_u : u.fits c
  fits_v : v.fits c
  two_le_v : 2 ≤ deg v
  residue_u : residue c u = residue c x * residue c z
  residue_v : residue c v = residue c x * residue c g
  coprime_iff : IsCoprime (vecPoly u) (vecPoly v) ↔ IsCoprime (vecPoly x) (vecPoly c.poly)
  bound_z : z = Vec.ZERO ∨ deg z + deg v ≤ c.m + 2
  bound_g : g = Vec.ZERO ∨ deg g + deg u ≤ c.m + 2

variable {x : Vec}

theorem FinvInv.init (hx : x.fits c) : FinvInv c x x c.poly Vec.ZERO Vec.ONE where
  fits_u := hx
  fits_v := Vec.fits_const c .poly
  two_le_v := by
    rw [deg_poly]
    exact Nat.succ_le_succ c.m_pos
  residue_u := by rw [residue_one, mul_one]
  residue_v := by rw [residue_poly, residue_zero, mul_zero]
  coprime_iff := Iff.rfl
  bound_z := .inr (by rw [deg_one, deg_poly]; omega)
  bound_g := .inl rfl

theorem FinvInv.v_ne_zero (h : FinvInv c x u v g z) : v ≠ Vec.ZERO :=
  ne_zero_of_deg_pos (two_pos.trans_le h.two_le_v)

theorem FinvInv.swap (h : FinvInv c x u v g z) (hu : 2 ≤ deg u) : FinvInv c x v u z g where
  fits_u := h.fits_v
  fits_v := h.fits_u
  two_le_v := hu
  residue_u := h.residue_v
  residue_v := h.residue_u
  coprime_iff := isCoprime_comm.trans h.coprime_iff
  bound_z := h.bound_g
  bound_g := h.bound_z

/-- The shift of g in a turn loses no bit. -/
theorem FinvInv.shift_fits (h : FinvInv c x u v g z) (hle : deg v ≤ deg u) :
    deg g + (deg u - deg v) ≤ c.cap := by
  have htwo := h.two_le_v
  have hcap : deg u ≤ c.cap := fits_iff_deg_le.1 h.fits_u
  have hm := c.m_lt_cap
  rcases h.bound_g with rfl | hg
  · rw [deg_zero]
    omega
  · omega

theorem FinvInv.bound_z_turn (h : FinvInv c x u v g z) (hle : deg v ≤ deg u) :
    z ^^^ lshift c g (deg u - deg v) = Vec.ZERO ∨
      deg (z ^^^ lshift c g (deg u - deg v)) + deg v ≤ c.m + 2 := by
  rcases h.bound_g with rfl | hg
  · rw [lshift, BitVec.zero_shiftLeft, BitVec.zero_and, BitVec.xor_zero]
    exact h.bound_z
  · have hz : deg z ≤ c.m + 2 - deg v := by
      rcases h.bound_z with rfl | hz
      · rw [deg_zero]
        exact Nat.zero_le _
      · omega
    have hsum := deg_xor_le hz ((deg_lshift_le c g (deg u - deg v)).trans (by omega))
    exact .inr (by omega)

/-- A turn adds a multiple of the second row to the first, and lowers the degree of u. -/
theorem FinvInv.turn (h : FinvInv c x u v g z) (hle : deg v ≤ deg u) :
    FinvInv c x (u ^^^ lshift c v (deg u - deg v)) v g (z ^^^ lshift c g (deg u - deg v)) ∧
    deg (u ^^^ lshift c v (deg u - deg v)) < deg u := by
  have htwo := h.two_le_v
  have hcap : deg u ≤ c.cap := fits_iff_deg_le.1 h.fits_u
  have hfit : deg v + (deg u - deg v) ≤ c.cap := by omega
  have hshift : deg (lshift c v (deg u - deg v)) = deg u := by rw [deg_lshift h.v_ne_zero hfit]; omega
  have hlt := deg_xor_lt hshift.symm (ne_zero_of_deg_pos (by omega))
  have hfitg := h.shift_fits hle
  refine ⟨⟨Vec.fits_xor h.fits_u (Vec.fits_lshift ..), h.fits_v, htwo, ?residue, h.residue_v, ?coprime,
    h.bound_z_turn hle, ?bound_g⟩, hlt⟩
  case residue =>
    rw [residue_xor, residue_xor, residue_lshift hfit, residue_lshift hfitg, h.residue_u, h.residue_v]
    ring
  case coprime =>
    rw [vecPoly_xor, vecPoly_lshift hfit, IsCoprime.add_mul_right_left_iff]
    exact h.coprime_iff
  case bound_g =>
    rcases h.bound_g with hg | hg
    · exact .inl hg
    · exact .inr (by omega)

/-- What finv should answer: an inverse that is reduced, or none for an operand with no inverse. -/
def FinvAnswer (c : Curve) (x : Vec) : Option Vec → Prop
  | some z => residue c x * residue c z = 1 ∧ z.reduced c
  | none => ¬ IsCoprime (vecPoly x) (vecPoly c.poly)

theorem FinvInv.answer_one (h : FinvInv c x Vec.ONE v g z) : FinvAnswer c x (some z) := by
  refine ⟨?_, ?_⟩
  · rw [← h.residue_u, residue_one]
  · have htwo := h.two_le_v
    rcases h.bound_z with rfl | hz
    · exact reduced_zero
    · exact show deg z ≤ c.m by omega

/-- Where u is ZERO, v is a common divisor of the operand and f that is no unit. -/
theorem FinvInv.answer_zero (h : FinvInv c x Vec.ZERO v g z) : FinvAnswer c x none := by
  have htwo := h.two_le_v
  rw [FinvAnswer, ← h.coprime_iff, vecPoly_zero, isCoprime_zero_left]
  intro hunit
  have hdeg := natDegree_eq_zero_of_isUnit hunit
  rw [natDegree_vecPoly] at hdeg
  omega

theorem FinvInv.answer {fuel : ℕ} (h : FinvInv c x u v g z) (hfuel : deg u + deg v < fuel) :
    FinvAnswer c x (finvLoop c fuel u v g z) := by
  induction fuel generalizing u v g z with
  | zero => exact absurd hfuel (Nat.not_lt_zero _)
  | succ fuel ih =>
    by_cases hu1 : u = Vec.ONE
    · subst hu1
      rw [finvLoop_one]
      exact h.answer_one
    by_cases hu0 : u = Vec.ZERO
    · subst hu0
      rw [finvLoop_zero]
      exact h.answer_zero
    rw [finvLoop_succ fuel hu1 hu0 h.v_ne_zero]
    split
    · next hdeg =>
      obtain ⟨hturn, hlt⟩ := (h.swap (two_le_deg hu0 hu1)).turn hdeg.le
      exact ih hturn (by omega)
    · next hdeg =>
      obtain ⟨hturn, hlt⟩ := h.turn (Nat.le_of_not_lt hdeg)
      exact ih hturn (by omega)

end
end Sys2Proof
end

section
/-! What finv answers (42_field.md R124, R125, R130). -/

namespace Sys2Proof

open Polynomial

section
variable {c : Curve} {x z : Vec}

/-- An inverse modulo f exists exactly for the operands that share no divisor with f. -/
theorem exists_congF_one_iff :
    (∃ p, congF c (toPoly x * p) 1) ↔ IsCoprime (vecPoly x) (vecPoly c.poly) := by
  constructor
  · rintro ⟨p, q, hq⟩
    rw [toPoly_eq_vecPoly, toPoly_eq_vecPoly] at hq
    exact ⟨p, -q, by linear_combination hq⟩
  · rintro ⟨p, q, hpq⟩
    refine ⟨p, -q, ?_⟩
    rw [toPoly_eq_vecPoly, toPoly_eq_vecPoly]
    linear_combination hpq

theorem congF_mul_one_iff : congF c (toPoly x * toPoly z) 1 ↔ residue c x * residue c z = 1 := by
  rw [congF_iff, toPoly_eq_vecPoly, toPoly_eq_vecPoly, map_mul, map_one, residue, residue]

/-- A reduced inverse determines its answer, and so does its absence. -/
theorem FinvAnswer.unique {o o' : Option Vec} (h : FinvAnswer c x o) (h' : FinvAnswer c x o') : o = o' := by
  have hunit : ∀ z, FinvAnswer c x (some z) → IsCoprime (vecPoly x) (vecPoly c.poly) := fun z hz =>
    exists_congF_one_iff.1 ⟨toPoly z, congF_mul_one_iff.2 hz.1⟩
  cases o with
  | none =>
    cases o' with
    | none => rfl
    | some z' => exact absurd (hunit z' h') h
  | some z =>
    cases o' with
    | none => exact absurd (hunit z h) h'
    | some z' =>
      obtain ⟨hz, hred⟩ := h
      obtain ⟨hz', hred'⟩ := h'
      have hres : residue c z = residue c z' := left_inv_eq_right_inv ((mul_comm _ _).trans hz) hz'
      rw [eq_of_residue_eq hred hred' hres]

/-- finv answers what it should, and so it does with any larger number of turns (log 6). -/
theorem finvLoop_answer (hx : x.fits c) (k : ℕ) :
    FinvAnswer c x (finvLoop c (deg x + deg c.poly + 1 + k) x c.poly Vec.ZERO Vec.ONE) :=
  (FinvInv.init hx).answer (by omega)

theorem finv_answer (hx : x.fits c) : FinvAnswer c x (finv c x) := finvLoop_answer hx 0

theorem finv_spec (hx : x.fits c) (hz : finv c x = some z) :
    residue c x * residue c z = 1 ∧ z.reduced c := by
  have h := finv_answer hx
  rw [hz] at h
  exact h

theorem finv_isSome_iff (hx : x.fits c) :
    (finv c x).isSome = true ↔ IsCoprime (vecPoly x) (vecPoly c.poly) := by
  have h := finv_answer hx
  cases ho : finv c x with
  | none =>
    rw [ho] at h
    exact iff_of_false Bool.false_ne_true h
  | some z =>
    exact iff_of_true rfl
      (exists_congF_one_iff.1 ⟨toPoly z, congF_mul_one_iff.2 (finv_spec hx ho).1⟩)

/-- A multiple of f shares f with it, which is no unit. -/
theorem finv_of_poly_dvd (hx : x.fits c) (hdvd : vecPoly c.poly ∣ vecPoly x) : finv c x = none := by
  refine Option.not_isSome_iff_eq_none.1 fun hsome => ?_
  have hcop := (finv_isSome_iff hx).1 hsome
  have hdeg := natDegree_eq_zero_of_isUnit (hcop.isUnit_of_dvd' hdvd dvd_rfl)
  rw [natDegree_poly] at hdeg
  exact c.m_pos.ne' hdeg

end

/-- Settles O44: the answer of finv, and the product of residues for a reduced operand. -/
theorem finvIsTheInverse : Obligations.FinvIsTheInverse := by
  intro c x z hx hz
  obtain ⟨hinv, hred⟩ := finv_spec hx hz
  refine ⟨congF_mul_one_iff.2 hinv, fun hxred => ⟨hred, ?_⟩⟩
  refine eq_of_residue_eq (reduced_fmul hxred z) reduced_one ?_
  rw [residue_fmul hxred hred, hinv, residue_one]

end Sys2Proof
end

section
/-! The commands of the Field family (42_field.md R118 to R127). -/

namespace Sys2Proof.Machine

/-- Settles O53: the results of each command, committed; FINV's is the value finv returns. -/
theorem fieldCommandsComplete : Obligations.FieldCommandsComplete := by
  intro s rd rs1 rs2
  refine ⟨?fsetone, ?fisone, ?fadd, ?finc, fun _ => ?fmul, fun z hz => ?finv, ?fred⟩
  case fsetone | fadd | finc | fmul | fred => exact exec_completes_reg rfl
  case fisone => exact exec_completes_bool beq_iff_eq rfl
  case finv => exact exec_completes_reg (congrArg (Option.map _) hz)

end Sys2Proof.Machine
end

section
/-! Squaring a binary polynomial as a number: the square of GF(2)[t] puts bit i at place 2i. The bits are
spread apart in blocks, of 1024 bits first and of one bit at last. -/

namespace Sys2Proof

open Polynomial

/-- `k` blocks of `d` ones, each with `d` zeros above it. -/
def spreadMask (d : ℕ) : ℕ → ℕ
  | 0 => 0
  | k + 1 => spreadMask d k <<< (2 * d) ||| (2 ^ d - 1)

theorem testBit_spreadMask {d r : ℕ} (hr : r < d) (k q : ℕ) :
    (spreadMask d k).testBit (d * q + r) = decide (q < 2 * k ∧ q % 2 = 0) := by
  induction k generalizing q with
  | zero => simp [spreadMask]
  | succ k ih =>
    rw [spreadMask, Nat.testBit_or, Nat.testBit_shiftLeft, Nat.testBit_two_pow_sub_one]
    match q with
    | 0 => simp [hr, show ¬ 2 * d ≤ r by omega]
    | 1 => simp [show ¬ 2 * d ≤ d + r by omega]
    | q + 2 =>
      have hplace : d * (q + 2) + r = 2 * d + (d * q + r) := by ring
      have hnot : ¬ 2 * d + (d * q + r) < d := by omega
      rw [hplace, Nat.add_sub_cancel_left, ih, decide_eq_true (Nat.le_add_right ..), decide_eq_false hnot,
        Bool.true_and, Bool.or_false, Nat.add_mod_right]
      exact decide_eq_decide.2 (and_congr_left fun _ => by omega)

/-- `x` holds the blocks of `d` bits of `n`, each with `d` zeros above it. -/
def IsSpread (d n x : ℕ) : Prop :=
  ∀ q r, r < d → x.testBit (d * q + r) = (decide (q % 2 = 0) && n.testBit (d * (q / 2) + r))

theorem isSpread_self {d n : ℕ} (hn : n < 2 ^ d) : IsSpread d n n := by
  intro q r hr
  have hbit : ∀ q, n.testBit (d * (q + 1) + r) = false := by
    intro q
    refine Nat.testBit_lt_two_pow (hn.trans_le (Nat.pow_le_pow_right two_pos ?_))
    rw [Nat.mul_succ]
    omega
  match q with
  | 0 => rfl
  | 1 => exact hbit 0
  | q + 2 =>
    rw [hbit, Nat.add_div_right q two_pos, hbit, Bool.and_false]

section
variable {d n x : ℕ}

theorem IsSpread.testBit_even (h : IsSpread d n x) (l : ℕ) {i : ℕ} (hi : i < d) :
    x.testBit (d * (2 * l) + i) = n.testBit (d * l + i) := by
  rw [h _ i hi, Nat.mul_mod_right, Nat.mul_div_cancel_left l two_pos, decide_eq_true rfl, Bool.true_and]

theorem IsSpread.testBit_odd (h : IsSpread d n x) (l : ℕ) {i : ℕ} (hi : i < d) :
    x.testBit (d * (2 * l + 1) + i) = false := by
  rw [h _ i hi, Nat.mul_add_mod_self_left, decide_eq_false (by decide), Bool.false_and]

/-- Half a block stays and half moves up; at an even place exactly one of the two stands. -/
theorem IsSpread.testBit_merge (h : IsSpread (2 * d) n x) {r : ℕ} (hr : r < d) (p : ℕ) :
    (x ||| x <<< d).testBit (d * (2 * p) + r) = n.testBit (d * p + r) := by
  rw [Nat.testBit_or, Nat.testBit_shiftLeft]
  rcases Nat.even_or_odd' p with ⟨l, rfl | rfl⟩
  · have hstay : d * (2 * (2 * l)) + r = 2 * d * (2 * l) + r := by ring
    have hbelow :
        (decide (d ≤ 2 * d * (2 * l) + r) && x.testBit (2 * d * (2 * l) + r - d)) = false := by
      cases l with
      | zero => simp [hr]
      | succ l =>
        have hplace : 2 * d * (2 * (l + 1)) + r = d + (2 * d * (2 * l + 1) + (d + r)) := by ring
        rw [hplace, Nat.add_sub_cancel_left, h.testBit_odd l (by omega), Bool.and_false]
    rw [hstay, hbelow, h.testBit_even l (by omega), Bool.or_false, show d * (2 * l) = 2 * d * l by ring]
  · have hstay : d * (2 * (2 * l + 1)) + r = 2 * d * (2 * l + 1) + r := by ring
    have hplace : 2 * d * (2 * l + 1) + r = d + (2 * d * (2 * l) + (d + r)) := by ring
    have hmoved : d * (2 * l + 1) + r = 2 * d * l + (d + r) := by ring
    rw [hstay, h.testBit_odd l (by omega), Bool.false_or, hplace, Nat.add_sub_cancel_left,
      h.testBit_even l (by omega), decide_eq_true (Nat.le_add_right ..), Bool.true_and, hmoved]

end

/-- The upper half of each block moves up by `d`. -/
def spreadStep (d k x : ℕ) : ℕ := (x ||| x <<< d) &&& spreadMask d k

theorem IsSpread.step {d k n x : ℕ} (hn : n < 2 ^ (d * k)) (h : IsSpread (2 * d) n x) :
    IsSpread d n (spreadStep d k x) := by
  intro q r hr
  rw [spreadStep, Nat.testBit_and, testBit_spreadMask hr]
  rcases Nat.even_or_odd' q with ⟨p, rfl | rfl⟩
  · rw [h.testBit_merge hr, Nat.mul_mod_right, Nat.mul_div_cancel_left p two_pos, decide_eq_true rfl,
      Bool.true_and]
    rcases Nat.lt_or_ge p k with hp | hp
    · rw [decide_eq_true ⟨by omega, rfl⟩, Bool.and_true]
    · have hhigh : d * k ≤ d * p + r := (Nat.mul_le_mul_left d hp).trans (Nat.le_add_right ..)
      rw [Nat.testBit_lt_two_pow (hn.trans_le (Nat.pow_le_pow_right two_pos hhigh)), Bool.false_and]
  · simp [Nat.add_mod]

/-- Blocks of `2 ^ j` bits, of a number below `2 ^ 2 ^ top`, spread down to single bits. -/
def spreadFrom (top : ℕ) : (j x : ℕ) → ℕ
  | 0, x => x
  | j + 1, x => spreadFrom top j (spreadStep (2 ^ j) (2 ^ (top - j)) x)

theorem isSpread_spreadFrom {top n : ℕ} (hn : n < 2 ^ 2 ^ top) {j x : ℕ} (hj : j ≤ top)
    (h : IsSpread (2 ^ j) n x) : IsSpread 1 n (spreadFrom top j x) := by
  induction j generalizing x with
  | zero => exact h
  | succ j ih =>
    refine ih (by omega) (IsSpread.step ?_ ?_)
    · rw [← Nat.pow_add, Nat.add_sub_cancel' (by omega)]
      exact hn
    · rw [← Nat.pow_succ']
      exact h

/-- The number with the bits of `n`, of which there are at most `2 ^ top`, spread apart. -/
def spread (top n : ℕ) : ℕ := spreadFrom top top n

/-- Spreading the bits apart squares the polynomial. -/
theorem bitPoly_spread {top n : ℕ} (hn : n < 2 ^ 2 ^ top) : bitPoly (spread top n) = bitPoly n ^ 2 := by
  have hspread := isSpread_spreadFrom hn le_rfl (isSpread_self hn)
  rw [← ZMod.expand_card]
  ext i
  have hbit := hspread i 0 one_pos
  rw [one_mul, one_mul, add_zero, add_zero] at hbit
  rw [coeff_expand two_pos, coeff_bitPoly, coeff_bitPoly, spread, hbit]
  by_cases hi : i % 2 = 0
  · simp [hi, Nat.dvd_of_mod_eq_zero hi]
  · simp [hi, mt Nat.mod_eq_zero_of_dvd hi]

end Sys2Proof
end

section
/-! A test for irreducible polynomials of prime degree over GF(2). -/

namespace Sys2Proof

open Polynomial

/-- A polynomial of prime degree p that divides t^(2^p) - t and has no root is irreducible: the degree of each
of its irreducible factors divides p. -/
theorem irreducible_of_dvd_frobenius {f : (ZMod 2)[X]} {p : ℕ} (hp : p.Prime) (hdeg : f.natDegree = p)
    (hdvd : f ∣ X ^ 2 ^ p - X) (hroot : ∀ a, f.eval a ≠ 0) : Irreducible f := by
  have hunit : ¬ IsUnit f := fun hu => hp.ne_zero (hdeg.symm.trans (natDegree_eq_zero_of_isUnit hu))
  have hf0 : f ≠ 0 := fun h0 => hroot 0 (by rw [h0, eval_zero])
  obtain ⟨g, hg, q, rfl⟩ := WfDvdMonoid.exists_irreducible_factor hunit hf0
  have hg0 := hg.ne_zero
  have hq0 := right_ne_zero_of_mul hf0
  have hgp : g.natDegree ∣ p := by
    refine hg.natDegree_dvd_of_dvd_X_pow_card_pow_sub_X ?_
    rw [Nat.card_zmod]
    exact (dvd_mul_right g q).trans hdvd
  rcases (Nat.dvd_prime hp).1 hgp with hone | hall
  · obtain ⟨a, ha⟩ := exists_root_of_degree_eq_one (degree_eq_iff_natDegree_eq hg0 |>.2 hone)
    exact absurd (by rw [eval_mul, ha, zero_mul]) (hroot a)
  · have hq : IsUnit q := by
      rw [natDegree_mul hg0 hq0, hall, Nat.add_eq_left] at hdeg
      rw [isUnit_iff_degree_eq_zero, degree_eq_natDegree hq0, hdeg, Nat.cast_zero]
    exact (irreducible_mul_isUnit hq).2 hg

/-- The polynomial with the exponents of a list. -/
noncomputable def expsPoly (es : List ℕ) : (ZMod 2)[X] := (es.map fun e => X ^ e).sum

theorem expsPoly_cons (e : ℕ) (es : List ℕ) : expsPoly (e :: es) = X ^ e + expsPoly es := by
  rw [expsPoly, List.map_cons, List.sum_cons, expsPoly]

/-- One reduction of `n` modulo t^m + the powers in `es`: the bits from m on are replaced by their products
with the lower powers. -/
def foldTail (m : ℕ) (es : List ℕ) (n : ℕ) : ℕ :=
  es.foldr (fun e acc => (n >>> m) <<< e ^^^ acc) (n % 2 ^ m)

theorem bitPoly_foldTail (m : ℕ) (es : List ℕ) (n : ℕ) :
    bitPoly (foldTail m es n) = expsPoly es * bitPoly (n >>> m) + bitPoly (n % 2 ^ m) := by
  rw [foldTail]
  induction es with
  | nil => simp [expsPoly]
  | cons e es ih =>
    rw [List.foldr_cons, bitPoly_xor, bitPoly_shiftLeft, ih, expsPoly_cons]
    ring

theorem dvd_bitPoly_foldTail_sub (m : ℕ) (es : List ℕ) (n : ℕ) :
    X ^ m + expsPoly es ∣ bitPoly (foldTail m es n) - bitPoly n := by
  refine ⟨bitPoly (n >>> m), ?_⟩
  rw [bitPoly_foldTail, bitPoly_split n m]
  linear_combination (-X ^ m * bitPoly (n >>> m)) * (CharTwo.two_eq_zero : (2 : (ZMod 2)[X]) = 0)

/-- One squaring modulo t^m + the powers in `es`. -/
def squareMod (top m : ℕ) (es : List ℕ) (n : ℕ) : ℕ := foldTail m es (foldTail m es (spread top n))

theorem dvd_bitPoly_squareMod_sub {top n : ℕ} (hn : n < 2 ^ 2 ^ top) (m : ℕ) (es : List ℕ) :
    X ^ m + expsPoly es ∣ bitPoly (squareMod top m es n) - bitPoly n ^ 2 := by
  rw [← bitPoly_spread hn, squareMod]
  have hsum := dvd_add (dvd_bitPoly_foldTail_sub m es (foldTail m es (spread top n)))
    (dvd_bitPoly_foldTail_sub m es (spread top n))
  rwa [sub_add_sub_cancel] at hsum

/-- Whether squaring `k` times modulo t^m + the powers in `es` takes `n` to t, every value on the way having
at most `2 ^ top` bits. -/
def frobeniusCheck (top m : ℕ) (es : List ℕ) : (k n : ℕ) → Bool
  | 0, n => n == 1 <<< 1
  | k + 1, n => decide (n < 2 ^ 2 ^ top) && frobeniusCheck top m es k (squareMod top m es n)

theorem dvd_of_frobeniusCheck {top m : ℕ} {es : List ℕ} {k n : ℕ}
    (h : frobeniusCheck top m es k n = true) : X ^ m + expsPoly es ∣ bitPoly n ^ 2 ^ k - X := by
  induction k generalizing n with
  | zero =>
    rw [eq_of_beq h, bitPoly_shiftLeft, bitPoly_one, pow_one, mul_one, pow_zero, pow_one, sub_self]
    exact dvd_zero _
  | succ k ih =>
    rw [frobeniusCheck, Bool.and_eq_true, decide_eq_true_eq] at h
    obtain ⟨hn, hrest⟩ := h
    have hsquare : X ^ m + expsPoly es ∣ bitPoly (squareMod top m es n) ^ 2 ^ k - (bitPoly n ^ 2) ^ 2 ^ k :=
      (dvd_bitPoly_squareMod_sub hn m es).trans (sub_dvd_pow_sub_pow _ _ _)
    have hsub := dvd_sub (ih hrest) hsquare
    rwa [sub_sub_sub_cancel_left, ← pow_mul, ← pow_succ'] at hsub

end Sys2Proof
end

section
/-! The reducing polynomials are irreducible (10_state.md R54, 42_field.md R130). -/

namespace Sys2Proof

open Polynomial

/-- The exponents of POLY below its degree (10_state.md R54). -/
def Curve.tail : Curve → List ℕ
  | .k163 | .b163 => [7, 6, 3, 0]
  | .k233 | .b233 => [74, 0]
  | .k283 | .b283 => [12, 7, 5, 0]
  | .k409 | .b409 => [87, 0]
  | .k571 | .b571 => [10, 5, 2, 0]

/-- The number with the bits of a list of exponents. -/
def expsNat (es : List ℕ) : ℕ := es.foldr (fun e acc => 1 <<< e ^^^ acc) 0

theorem bitPoly_expsNat (es : List ℕ) : bitPoly (expsNat es) = expsPoly es := by
  induction es with
  | nil => exact bitPoly_zero
  | cons e es ih =>
    rw [expsNat, List.foldr_cons, bitPoly_xor, bitPoly_shiftLeft, bitPoly_one, mul_one, expsPoly_cons,
      ← ih, expsNat]

theorem toNat_poly (c : Curve) : c.poly.toNat = expsNat (c.m :: c.tail) := by
  cases c <;> decide +kernel

theorem eval_expsPoly (es : List ℕ) (a : ZMod 2) :
    (expsPoly es).eval a = (es.map fun e => a ^ e).sum := by
  rw [expsPoly, eval_listSum, List.map_map]
  exact congrArg List.sum (List.map_congr_left fun e _ => by rw [Function.comp_apply, eval_pow, eval_X])

theorem vecPoly_poly (c : Curve) : vecPoly c.poly = expsPoly (c.m :: c.tail) := by
  rw [vecPoly, toNat_poly, bitPoly_expsNat]

theorem prime_m (c : Curve) : c.m.Prime := by
  cases c <;> simp only [Curve.m] <;> norm_num

theorem frobeniusCheck_poly (c : Curve) : frobeniusCheck 10 c.m c.tail c.m (1 <<< 1) = true := by
  cases c <;> decide +kernel

/-- f has the constant term 1 and an odd number of terms. -/
theorem eval_poly_ne_zero (c : Curve) (a : ZMod 2) : (vecPoly c.poly).eval a ≠ 0 := by
  rw [vecPoly_poly, eval_expsPoly]
  revert a
  cases c <;> decide +kernel

theorem irreducible_poly (c : Curve) : Irreducible (vecPoly c.poly) := by
  refine irreducible_of_dvd_frobenius (prime_m c) (natDegree_poly c) ?_ (eval_poly_ne_zero c)
  have h := dvd_of_frobeniusCheck (frobeniusCheck_poly c)
  rwa [← expsPoly_cons, ← vecPoly_poly, bitPoly_shiftLeft, bitPoly_one, pow_one, mul_one] at h

end Sys2Proof
end

section
/-! What never faults (42_field.md R130, 43_point.md R144, 44_protocol.md R163): f is irreducible, so every
nonzero reduced operand has an inverse, and the point functions keep their coordinates reduced. -/

namespace Sys2Proof

section
variable {c : Curve}

theorem finv_of_reduced {x : Vec} (hx : x.reduced c) (h0 : x ≠ Vec.ZERO) :
    ∃ z, finv c x = some z ∧ z.reduced c := by
  have hfits := fits_of_reduced hx
  have hcop : IsCoprime (vecPoly x) (vecPoly c.poly) :=
    ((irreducible_poly c).coprime_iff_not_dvd.2 fun hdvd => h0 (eq_zero_of_poly_dvd hx hdvd)).symm
  obtain ⟨z, hz⟩ := Option.isSome_iff_exists.1 ((finv_isSome_iff hfits).2 hcop)
  exact ⟨z, hz, (finv_spec hfits hz).2⟩

theorem reduced_vecA : c.vecA.reduced c := by
  rw [Curve.vecA]
  split
  · exact reduced_one
  · exact reduced_zero

theorem reduced_O : Point.O.reduced c := ⟨reduced_zero, reduced_zero⟩

/-- The base point's coordinates are reduced (10_state.md R54). -/
theorem reduced_basePoint (c : Curve) : c.basePoint.reduced c := by
  cases c <;> exact ⟨by decide +kernel, by decide +kernel⟩

theorem pdbl_of_reduced {p : Point} (hp : p.reduced c) : ∃ r, pdbl c p = some r ∧ r.reduced c := by
  by_cases h0 : p.x = Vec.ZERO
  · exact ⟨Point.O, pdbl_of_x_zero c h0, reduced_O⟩
  obtain ⟨hx, hy⟩ := hp
  obtain ⟨xi, hxi, hxired⟩ := finv_of_reduced hx h0
  have hl : (fmul c xi p.y ^^^ p.x).reduced c := reduced_xor (reduced_fmul hxired _) hx
  rw [pdbl, if_neg h0, hxi]
  exact ⟨_, rfl, reduced_xor (reduced_xor (reduced_fmul hl _) hl) reduced_vecA,
    reduced_xor (reduced_fmul hx _) (reduced_fmul (reduced_xor hl reduced_one) _)⟩

theorem paddChord_of_reduced {p q : Point} (hp : p.reduced c) (hq : q.reduced c) (hne : p.x ≠ q.x) :
    ∃ r, paddChord c p q = some r ∧ r.reduced c := by
  obtain ⟨hpx, hpy⟩ := hp
  obtain ⟨hqx, hqy⟩ := hq
  have hb : (p.x ^^^ q.x).reduced c := reduced_xor hpx hqx
  obtain ⟨bi, hbi, hbired⟩ := finv_of_reduced hb fun h0 => hne (BitVec.xor_eq_zero_iff.1 h0)
  have hk : (fmul c bi (p.y ^^^ q.y)).reduced c := reduced_fmul hbired _
  have hd := reduced_xor
    (reduced_xor (reduced_xor (reduced_fmul hk (fmul c bi (p.y ^^^ q.y))) hk) hb) reduced_vecA
  rw [paddChord, hbi]
  exact ⟨_, rfl, hd, reduced_xor hpy (reduced_xor (reduced_fmul (reduced_xor hpx hd) _) hd)⟩

theorem padd_of_reduced {p q : Point} (hp : p.reduced c) (hq : q.reduced c) :
    ∃ r, padd c p q = some r ∧ r.reduced c := by
  rw [padd]
  split
  · exact ⟨p, rfl, hp⟩
  split
  · exact ⟨q, rfl, hq⟩
  split
  · split
    · exact pdbl_of_reduced hp
    · exact ⟨Point.O, rfl, reduced_O⟩
  · next hne => exact paddChord_of_reduced hp hq hne

theorem pmulLoop_of_reduced {p : Point} (hp : p.reduced c) (k : Vec) (n : ℕ) {acc : Point}
    (hacc : acc.reduced c) : ∃ r, pmulLoop c p k n acc = some r := by
  induction n generalizing acc with
  | zero => exact ⟨acc, rfl⟩
  | succ n ih =>
    obtain ⟨dbl, hdbl, hdblred⟩ := pdbl_of_reduced hacc
    obtain ⟨sum, hsum, hsumred⟩ := padd_of_reduced hdblred hp
    rw [pmulLoop, hdbl]
    dsimp only
    split
    · rw [hsum]
      exact ih hsumred
    · exact ih hdblred

theorem pmul_of_reduced {p : Point} (hp : p.reduced c) (k : Vec) : ∃ r, pmul c p k = some r :=
  pmulLoop_of_reduced hp k (deg k) reduced_O

/-- The point functions return on points with reduced coordinates (43_point.md R144). -/
theorem pointFunctions_return {p q : Point} (hp : p.reduced c) (hq : q.reduced c) :
    (∃ r, pdbl c p = some r) ∧ (∃ r, padd c p q = some r) ∧ ∀ k, ∃ r, pmul c p k = some r := by
  obtain ⟨r, hr, _⟩ := pdbl_of_reduced hp
  obtain ⟨t, ht, _⟩ := padd_of_reduced hp hq
  exact ⟨⟨r, hr⟩, ⟨t, ht⟩, pmul_of_reduced hp⟩

end

namespace Machine

section
variable {i : Instr} {s : State}

/-- A command with results ends completed (60_exceptions.md R172). -/
theorem exec_done {r : CmdResult} (h : cmdResult i s.curve s.ctrl.cofv s.opd = some r) :
    ∃ t, exec i s = .next t ∧ t.done = true := by
  obtain ⟨t, ht, hdone⟩ := exec_completes h
  exact ⟨t, ht, hdone.done⟩

/-- A command whose results are made of the value of its function completes where the function returns one. -/
theorem exec_done_of_map {α : Type} {o : Option α} {f : α → CmdResult}
    (h : cmdResult i s.curve s.ctrl.cofv s.opd = o.map f) (ho : ∃ a, o = some a) :
    ∃ t, exec i s = .next t ∧ t.done = true := by
  obtain ⟨a, rfl⟩ := ho
  exact exec_done h

end

/-- KEYGEN multiplies the base point, whose coordinates are reduced (44_protocol.md R163). -/
theorem keygenResult_returns (c : Curve) (pd : Pair) (rpriv : Reg) (p : Vec) :
    ∃ r, keygenResult c pd rpriv p = some r := by
  rw [keygenResult]
  split
  · exact ⟨_, rfl⟩
  · obtain ⟨q, hq⟩ := pmul_of_reduced (reduced_basePoint c) (maskN c p)
    rw [hq]
    exact ⟨_, rfl⟩

/-- Settles O45: finv by its answer, which the number of turns does not change; the reduced operands by the
irreducibility of f; the commands by their functions. -/
theorem finvSucceedsExactlyOnUnits : Obligations.FinvSucceedsExactlyOnUnits := by
  intro c
  refine ⟨fun x hx => ⟨?units, ?multiples, fun k => ?turns⟩, ?reduced, ?points, ?commands, ?keygen⟩
  case units => rw [finv_isSome_iff hx, exists_congF_one_iff]
  case multiples =>
    rw [toPoly_eq_vecPoly, toPoly_eq_vecPoly]
    exact finv_of_poly_dvd hx
  case turns => exact (finvLoop_answer hx k).unique (finv_answer hx)
  case reduced =>
    intro x hx h0
    obtain ⟨z, hz, _⟩ := finv_of_reduced hx h0
    exact ⟨z, hz⟩
  case points =>
    exact fun p q => pointFunctions_return
  case commands =>
    rintro s pd ps rk rfl hpd hps
    obtain ⟨hdbl, hadd, hmul⟩ := pointFunctions_return hpd hps
    exact ⟨exec_done_of_map rfl hdbl, exec_done_of_map rfl hadd, exec_done_of_map rfl (hmul _)⟩
  case keygen =>
    rintro s pd rpriv rfl
    obtain ⟨r, hr⟩ := keygenResult_returns s.curve pd rpriv (s.opd rpriv)
    exact exec_done hr

end Machine
end Sys2Proof
end

section
/-! The commands of the CurvePoint family (43_point.md R137 to R142). -/

namespace Sys2Proof

theorem isIdentity_iff_coordinates (p : Point) :
    isIdentity p = true ↔ p.x = Vec.ZERO ∧ p.y = Vec.ZERO := by
  rw [isIdentity, Bool.and_eq_true, beq_iff_eq, beq_iff_eq]

namespace Machine

theorem State.setRegs_pairWrites_eq_withPoint (s : State) (pd : Pair) (q : Point) :
    (s.setRegs (pairWrites pd q)).reg = s.withPoint pd q := by
  funext r
  rw [State.reg_setRegs_pairWrites, State.withPoint, Function.update_apply, Function.update_apply]

/-- A command whose result is a point completes with it in the pair. -/
theorem exec_completes_point {i : Instr} {s : State} {pd : Pair} {q : Point}
    (h : cmdResult i s.curve s.ctrl.cofv s.opd = some (.regs (pairWrites pd q))) :
    ∃ t, exec i s = .next t ∧ Completed s t (s.withPoint pd q) s.res .ok := by
  rw [← State.setRegs_pairWrites_eq_withPoint]
  exact exec_completes h

/-- Settles O54: the results of each command, committed; those of PDBL, PADD and PMUL are the point their
function returns. -/
theorem pointCommandsComplete : Obligations.PointCommandsComplete := by
  intro s pd ps rk
  refine ⟨?piszero, ?pcopy, fun q hq => ?pdbl, fun q hq => ?padd, fun q hq => ?pmul, ?poncurve⟩
  case piszero => exact exec_completes_bool (isIdentity_iff_coordinates _) rfl
  case pcopy => exact exec_completes_point rfl
  case pdbl | padd | pmul => exact exec_completes_point (congrArg (Option.map _) hq)
  case poncurve => exact exec_completes_bool Iff.rfl rfl

end Machine
end Sys2Proof
end

section
/-! The curve y^2 + x·y = x^3 + a·x^2 + b in characteristic 2 (43_point.md R132), as a Weierstrass curve: the
formulas of pdbl and padd are those of its group law. -/

namespace Sys2Proof

open WeierstrassCurve.Affine

/-- The curve of 43_point.md R132 with the coefficients a and b. -/
def binaryCurve {R : Type*} [CommRing R] (a b : R) : WeierstrassCurve.Affine R := ⟨1, a, 0, 0, b⟩

section
variable {R : Type*} [CommRing R] {a b : R}

theorem binaryCurve_equation_iff {x y : R} :
    (binaryCurve a b).Equation x y ↔ y ^ 2 + x * y = x ^ 3 + a * x ^ 2 + b := by
  simp [equation_iff, binaryCurve]

variable [CharP R 2]

/-- The negative is the model's `negPoint` (30_encoding.md R94). -/
theorem binaryCurve_negY (x y : R) : (binaryCurve a b).negY x y = x + y := by
  simp [negY, binaryCurve, CharTwo.neg_eq, CharTwo.sub_eq_add, add_comm]

theorem binaryCurve_addX (x₁ x₂ k : R) :
    (binaryCurve a b).addX x₁ x₂ k = k ^ 2 + k + (x₁ + x₂) + a := by
  simp only [addX, binaryCurve, CharTwo.sub_eq_add]
  ring

theorem binaryCurve_addY (x₁ x₂ y₁ k : R) :
    (binaryCurve a b).addY x₁ x₂ y₁ k =
      y₁ + ((x₁ + (binaryCurve a b).addX x₁ x₂ k) * k + (binaryCurve a b).addX x₁ x₂ k) := by
  rw [addY, binaryCurve_negY, negAddY, CharTwo.sub_eq_add]
  ring

end

section
variable {F : Type*} [Field F] [CharP F 2] {a b d : F}

/-- The addition formula of 43_point.md R134 with the slope k, for points with different x. -/
theorem binaryCurve_equation_chord {x₁ y₁ x₂ y₂ k : F} (hx : x₁ ≠ x₂)
    (h₁ : (binaryCurve a b).Equation x₁ y₁) (h₂ : (binaryCurve a b).Equation x₂ y₂)
    (hk : (x₁ + x₂) * k = y₁ + y₂) (hd : d = k ^ 2 + k + (x₁ + x₂) + a) :
    (binaryCurve a b).Equation d (y₁ + ((x₁ + d) * k + d)) := by
  classical
  have hslope : (binaryCurve a b).slope x₁ x₂ y₁ y₂ = k := by
    rw [slope_of_X_ne hx, div_eq_iff (sub_ne_zero.2 hx), CharTwo.sub_eq_add, CharTwo.sub_eq_add, ← hk,
      mul_comm]
  have hsum := equation_add h₁ h₂ fun hn => hx hn.1
  rwa [hslope, binaryCurve_addY, binaryCurve_addX, ← hd] at hsum

/-- The doubling formula of 43_point.md R133 with the slope l = x + y/x, where x is not zero. -/
theorem binaryCurve_equation_double {x y l : F} (hx : x ≠ 0) (h : (binaryCurve a b).Equation x y)
    (hl : x * l = y + x ^ 2) (hd : d = l ^ 2 + l + a) :
    (binaryCurve a b).Equation d (x ^ 2 + (l + 1) * d) := by
  classical
  have hy : y ≠ (binaryCurve a b).negY x y := by
    rw [binaryCurve_negY]
    exact fun h0 => hx (right_eq_add.1 h0)
  have hslope : (binaryCurve a b).slope x x y y = l := by
    rw [slope_of_Y_ne rfl hy, div_eq_iff (sub_ne_zero.2 hy), binaryCurve_negY]
    simp only [binaryCurve]
    linear_combination hl + (2 * x ^ 2 + a * x) * (CharTwo.two_eq_zero : (2 : F) = 0)
  have hsum := equation_add h h fun hn => hy hn.2
  rw [hslope, binaryCurve_addY, binaryCurve_addX, CharTwo.add_self_eq_zero, add_zero, ← hd] at hsum
  have hy3 : y + ((x + d) * l + d) = x ^ 2 + (l + 1) * d := by
    linear_combination hl + y * (CharTwo.two_eq_zero : (2 : F) = 0)
  rwa [hy3] at hsum

end
end Sys2Proof
end

section
/-! The points of a build over its field (43_point.md R132 to R136): the residues of what pdbl and padd return,
and the curve they stay on (R143). -/

namespace Sys2Proof

/-- f is irreducible, so the residues modulo f are a field. -/
theorem fact_irreducible_poly (c : Curve) : Fact (Irreducible (vecPoly c.poly)) := ⟨irreducible_poly c⟩

theorem charP_residues (c : Curve) : CharP (AdjoinRoot (vecPoly c.poly)) 2 :=
  haveI := fact_irreducible_poly c
  charP_of_injective_algebraMap (algebraMap (ZMod 2) _).injective 2

/-- The curve of a build, over the residues modulo f. -/
noncomputable def Curve.weierstrass (c : Curve) : WeierstrassCurve.Affine (AdjoinRoot (vecPoly c.poly)) :=
  binaryCurve (residue c c.vecA) (residue c c.coeffB)

theorem reduced_coeffB (c : Curve) : c.coeffB.reduced c := by
  cases c <;> decide +kernel

/-- The coordinates satisfy the curve equation modulo f (43_point.md R132). -/
def Point.SatisfiesEquation (c : Curve) (p : Point) : Prop :=
  c.weierstrass.Equation (residue c p.x) (residue c p.y)

section
variable {c : Curve} {p q r : Point}

theorem residue_ne {v w : Vec} (hv : v.reduced c) (hw : w.reduced c) (hne : v ≠ w) :
    residue c v ≠ residue c w := fun h => hne (eq_of_residue_eq hv hw h)

/-- Points with reduced coordinates are equal where the residues of their coordinates are. -/
theorem Point.eq_of_residue_eq (hp : p.reduced c) (hq : q.reduced c) (hx : residue c p.x = residue c q.x)
    (hy : residue c p.y = residue c q.y) : p = q := by
  obtain ⟨hpx, hpy⟩ := hp
  obtain ⟨hqx, hqy⟩ := hq
  exact congr (congrArg Point.mk (Sys2Proof.eq_of_residue_eq hpx hqx hx))
    (Sys2Proof.eq_of_residue_eq hpy hqy hy)

theorem onCurve_O (c : Curve) : onCurve c Point.O = true := if_pos isIdentity_O

/-- The terms x^3 + a·x^2 of on_curve (43_point.md R136); `onCurve_of_ne` ties them to the model. -/
def cubicTerms (c : Curve) (x : Vec) : Vec :=
  if c.aIsOne then fmul c x x ^^^ fmul c (fmul c x x) x else fmul c (fmul c x x) x

theorem onCurve_of_ne (hne : p ≠ Point.O) :
    onCurve c p = (cubicTerms c p.x ^^^ c.coeffB ^^^ fmul c p.y p.y == fmul c p.x p.y) :=
  if_neg (mt (isIdentity_iff p).1 hne)

theorem reduced_cubicTerms {x : Vec} (hx : x.reduced c) : (cubicTerms c x).reduced c := by
  have hcube := reduced_fmul (reduced_fmul hx x) x
  rw [cubicTerms]
  split
  · exact reduced_xor (reduced_fmul hx x) hcube
  · exact hcube

theorem residue_cubicTerms {x : Vec} (hx : x.reduced c) :
    residue c (cubicTerms c x) = residue c x ^ 3 + residue c c.vecA * residue c x ^ 2 := by
  have hcube : residue c (fmul c (fmul c x x) x) = residue c x ^ 3 := by
    rw [residue_fmul (reduced_fmul hx x) hx, residue_fmul hx hx]
    ring
  rw [cubicTerms, Curve.vecA]
  split
  · rw [residue_xor, hcube, residue_fmul hx hx, residue_one]
    ring
  · rw [hcube, residue_zero, zero_mul, add_zero]

/-- on_curve is the curve equation on every point but the identity (43_point.md R136). -/
theorem onCurve_iff_of_ne (hp : p.reduced c) (hne : p ≠ Point.O) :
    onCurve c p = true ↔ p.SatisfiesEquation c := by
  have := charP_residues c
  obtain ⟨hx, hy⟩ := hp
  have hsum := reduced_xor (reduced_xor (reduced_cubicTerms hx) (reduced_coeffB c)) (reduced_fmul hy p.y)
  have hresidues : cubicTerms c p.x ^^^ c.coeffB ^^^ fmul c p.y p.y = fmul c p.x p.y ↔
      residue c (cubicTerms c p.x ^^^ c.coeffB ^^^ fmul c p.y p.y) = residue c (fmul c p.x p.y) :=
    ⟨congrArg _, eq_of_residue_eq hsum (reduced_fmul hx p.y)⟩
  rw [onCurve_of_ne hne, beq_iff_eq, hresidues, residue_xor, residue_xor, residue_cubicTerms hx,
    residue_fmul hy hy, residue_fmul hx hy, CharTwo.add_eq_iff_eq_add, Point.SatisfiesEquation,
    Curve.weierstrass, binaryCurve_equation_iff, ← sq, add_comm (residue c p.y ^ 2), eq_comm]

/-- pdbl by its slope x + y/x (43_point.md R133). -/
theorem pdbl_slope (hp : p.reduced c) (hx0 : p.x ≠ Vec.ZERO) (h : pdbl c p = some r) :
    ∃ l, residue c p.x * l = residue c p.y + residue c p.x ^ 2 ∧
      residue c r.x = l ^ 2 + l + residue c c.vecA ∧
      residue c r.y = residue c p.x ^ 2 + (l + 1) * residue c r.x := by
  obtain ⟨hx, hy⟩ := hp
  obtain ⟨xi, hxi, hxired⟩ := finv_of_reduced hx hx0
  obtain ⟨hinv, _⟩ := finv_spec (fits_of_reduced hx) hxi
  rw [pdbl, if_neg hx0, hxi] at h
  cases h
  have hl : (fmul c xi p.y ^^^ p.x).reduced c := reduced_xor (reduced_fmul hxired _) hx
  have hnx := reduced_xor (reduced_xor (reduced_fmul hl (fmul c xi p.y ^^^ p.x)) hl) (reduced_vecA (c := c))
  refine ⟨residue c (fmul c xi p.y ^^^ p.x), ?slope, ?x, ?y⟩
  case slope =>
    rw [residue_xor, residue_fmul hxired hy]
    linear_combination residue c p.y * hinv
  case x => rw [residue_xor, residue_xor, residue_fmul hl hl, sq]
  case y =>
    rw [residue_xor, residue_fmul hx hx, residue_fmul (reduced_xor hl reduced_one) hnx,
      residue_xor c _ Vec.ONE, residue_one, sq]

/-- padd by its slope (y₁ + y₂)/(x₁ + x₂), for points with different x (43_point.md R134). -/
theorem paddChord_slope (hp : p.reduced c) (hq : q.reduced c) (hne : p.x ≠ q.x)
    (h : paddChord c p q = some r) :
    ∃ k, (residue c p.x + residue c q.x) * k = residue c p.y + residue c q.y ∧
      residue c r.x = k ^ 2 + k + (residue c p.x + residue c q.x) + residue c c.vecA ∧
      residue c r.y = residue c p.y + ((residue c p.x + residue c r.x) * k + residue c r.x) := by
  obtain ⟨hpx, hpy⟩ := hp
  obtain ⟨hqx, hqy⟩ := hq
  have hb : (p.x ^^^ q.x).reduced c := reduced_xor hpx hqx
  have ha : (p.y ^^^ q.y).reduced c := reduced_xor hpy hqy
  obtain ⟨bi, hbi, hbired⟩ := finv_of_reduced hb fun h0 => hne (BitVec.xor_eq_zero_iff.1 h0)
  obtain ⟨hinv, _⟩ := finv_spec (fits_of_reduced hb) hbi
  rw [paddChord, hbi] at h
  cases h
  have hk : (fmul c bi (p.y ^^^ q.y)).reduced c := reduced_fmul hbired _
  have hd := reduced_xor
    (reduced_xor (reduced_xor (reduced_fmul hk (fmul c bi (p.y ^^^ q.y))) hk) hb) (reduced_vecA (c := c))
  refine ⟨residue c (fmul c bi (p.y ^^^ q.y)), ?slope, ?x, ?y⟩
  case slope =>
    rw [residue_fmul hbired ha, ← residue_xor, ← residue_xor]
    linear_combination residue c (p.y ^^^ q.y) * hinv
  case x => rw [residue_xor, residue_xor, residue_xor, residue_fmul hk hk, residue_xor c p.x, sq]
  case y => rw [residue_xor, residue_xor, residue_fmul (reduced_xor hpx hd) hk, residue_xor c p.x]

end
end Sys2Proof
end

section
/-! Addition of points (43_point.md R134, R143): the case each pair of points falls in, and that the order does
not matter. -/

namespace Sys2Proof

section
variable {c : Curve} {p q : Point}

theorem padd_of_x_eq (hp : p ≠ Point.O) (hq : q ≠ Point.O) (hx : p.x = q.x) (hne : p ≠ q) :
    padd c p q = some Point.O := by
  have hy : p.y ≠ q.y := fun hy => hne (congr (congrArg Point.mk hx) hy)
  rw [padd, if_neg (mt (isIdentity_iff q).1 hq), if_neg (mt (isIdentity_iff p).1 hp), if_pos hx, if_neg hy]

theorem padd_of_x_ne (hp : p ≠ Point.O) (hq : q ≠ Point.O) (hx : p.x ≠ q.x) :
    padd c p q = paddChord c p q := by
  rw [padd, if_neg (mt (isIdentity_iff q).1 hq), if_neg (mt (isIdentity_iff p).1 hp), if_neg hx]

/-- Both orders have one slope k, and y₁ + x₁·k = y₂ + x₂·k. -/
theorem paddChord_comm (hp : p.reduced c) (hq : q.reduced c) (hne : p.x ≠ q.x) :
    paddChord c p q = paddChord c q p := by
  have := fact_irreducible_poly c
  have := charP_residues c
  obtain ⟨r, hr, hrred⟩ := paddChord_of_reduced hp hq hne
  obtain ⟨t, ht, htred⟩ := paddChord_of_reduced hq hp hne.symm
  obtain ⟨k, hk, hrx, hry⟩ := paddChord_slope hp hq hne hr
  obtain ⟨k', hk', htx, hty⟩ := paddChord_slope hq hp hne.symm ht
  have hsum : residue c p.x + residue c q.x ≠ 0 := fun h0 =>
    residue_ne hp.1 hq.1 hne (CharTwo.add_eq_zero.1 h0)
  have hslope : k' = k := mul_left_cancel₀ hsum (by rw [hk, add_comm, hk', add_comm])
  have hline : residue c p.y + residue c p.x * k = residue c q.y + residue c q.x * k := by
    rw [CharTwo.add_eq_iff_eq_add, add_assoc, ← add_mul, add_comm (residue c q.x), hk,
      add_left_comm, CharTwo.add_self_eq_zero, add_zero]
  have hx : residue c r.x = residue c t.x := by rw [hrx, htx, hslope, add_comm (residue c q.x)]
  have hy : residue c r.y = residue c t.y := by
    rw [hry, hty, hslope, ← hx]
    linear_combination hline
  rw [hr, ht, Point.eq_of_residue_eq hrred htred hx hy]

theorem padd_comm (hp : p.reduced c) (hq : q.reduced c) : padd c p q = padd c q p := by
  by_cases hpO : p = Point.O
  · rw [hpO, padd_O, O_padd]
  by_cases hqO : q = Point.O
  · rw [hqO, padd_O, O_padd]
  by_cases hpq : p = q
  · rw [hpq]
  by_cases hx : p.x = q.x
  · rw [padd_of_x_eq hpO hqO hx hpq, padd_of_x_eq hqO hpO hx.symm (Ne.symm hpq)]
  · rw [padd_of_x_ne hpO hqO hx, padd_of_x_ne hqO hpO (Ne.symm hx), paddChord_comm hp hq hx]

end

/-- Settles O50: the cases of padd are the same in both orders, and the chord is one line. -/
theorem paddIsCommutative : Obligations.PaddIsCommutative :=
  fun _ _ _ => padd_comm

end Sys2Proof
end

section
/-! The points on the curve with reduced coordinates are closed under pdbl, padd and pmul (43_point.md R143). -/

namespace Sys2Proof

/-- The point has reduced coordinates and on_curve accepts it. -/
structure Point.OnCurveReduced (c : Curve) (p : Point) : Prop where
  reduced : p.reduced c
  onCurve : onCurve c p = true

namespace Point.OnCurveReduced

variable {c : Curve} {p q r : Point}

theorem O (c : Curve) : Point.O.OnCurveReduced c := ⟨reduced_O, onCurve_O c⟩

/-- What a function returns is on the curve where it satisfies the equation; on_curve accepts the identity
without reading it. -/
theorem of_equation {o : Option Point} (ho : ∃ t, o = some t ∧ t.reduced c) (h : o = some r)
    (heq : r.SatisfiesEquation c) : r.OnCurveReduced c := by
  obtain ⟨t, ht, hred⟩ := ho
  cases h.symm.trans ht
  by_cases hO : r = Point.O
  · exact hO ▸ O c
  · exact ⟨hred, (onCurve_iff_of_ne hred hO).2 heq⟩

theorem equation (hp : p.OnCurveReduced c) (hne : p ≠ Point.O) : p.SatisfiesEquation c :=
  (onCurve_iff_of_ne hp.reduced hne).1 hp.onCurve

theorem pdbl (hp : p.OnCurveReduced c) (h : pdbl c p = some r) : r.OnCurveReduced c := by
  by_cases hx0 : p.x = Vec.ZERO
  · cases (pdbl_of_x_zero c hx0).symm.trans h
    exact O c
  have := fact_irreducible_poly c
  have := charP_residues c
  obtain ⟨l, hl, hrx, hry⟩ := pdbl_slope hp.reduced hx0 h
  have hX : residue c p.x ≠ 0 := residue_zero c ▸ residue_ne hp.reduced.1 reduced_zero hx0
  have hpO : p ≠ Point.O := fun hO => hx0 (congrArg Point.x hO)
  refine of_equation (pdbl_of_reduced hp.reduced) h ?_
  rw [Point.SatisfiesEquation, hry]
  exact binaryCurve_equation_double hX (hp.equation hpO) hl hrx

theorem paddChord (hp : p.OnCurveReduced c) (hq : q.OnCurveReduced c) (hpO : p ≠ Point.O)
    (hqO : q ≠ Point.O) (hne : p.x ≠ q.x) (h : paddChord c p q = some r) : r.OnCurveReduced c := by
  have := fact_irreducible_poly c
  have := charP_residues c
  obtain ⟨k, hk, hrx, hry⟩ := paddChord_slope hp.reduced hq.reduced hne h
  have hX := residue_ne hp.reduced.1 hq.reduced.1 hne
  refine of_equation (paddChord_of_reduced hp.reduced hq.reduced hne) h ?_
  rw [Point.SatisfiesEquation, hry]
  exact binaryCurve_equation_chord hX (hp.equation hpO) (hq.equation hqO) hk hrx

theorem padd (hp : p.OnCurveReduced c) (hq : q.OnCurveReduced c) (h : padd c p q = some r) :
    r.OnCurveReduced c := by
  by_cases hqO : q = Point.O
  · rw [hqO, padd_O] at h
    cases h
    exact hp
  by_cases hpO : p = Point.O
  · rw [hpO, O_padd] at h
    cases h
    exact hq
  by_cases hpq : p = q
  · rw [← hpq, padd_self] at h
    exact hp.pdbl h
  by_cases hx : p.x = q.x
  · rw [padd_of_x_eq hpO hqO hx hpq] at h
    cases h
    exact O c
  · rw [padd_of_x_ne hpO hqO hx] at h
    exact hp.paddChord hq hpO hqO hx h

end Point.OnCurveReduced

/-- What pdbl and the addition of `p` keep, pmul's loop keeps (43_point.md R135). -/
theorem pmulLoop_invariant {I : Point → Prop} {c : Curve} {p : Point}
    (hpdbl : ∀ a r, I a → pdbl c a = some r → I r) (hpadd : ∀ a r, I a → padd c a p = some r → I r)
    {k : Vec} {n : ℕ} {acc r : Point} (hacc : I acc) (h : pmulLoop c p k n acc = some r) : I r := by
  induction n generalizing acc with
  | zero =>
    cases h
    exact hacc
  | succ n ih =>
    unfold pmulLoop at h
    split at h
    · cases h
    · next d hd =>
      have hdbl := hpdbl acc d hacc hd
      split at h
      · split at h
        · cases h
        · next sum hsum => exact ih (hpadd d sum hdbl hsum) h
      · exact ih hdbl h

theorem Point.OnCurveReduced.pmul {c : Curve} {p r : Point} {k : Vec} (hp : p.OnCurveReduced c)
    (h : pmul c p k = some r) : r.OnCurveReduced c :=
  pmulLoop_invariant (fun _ _ ha => ha.pdbl) (fun _ _ ha => ha.padd hp) (O c) h

theorem onCurve_basePoint (c : Curve) : onCurve c c.basePoint = true := by
  cases c <;> decide +kernel

/-- Settles O49: the two formulas are those of the group law of the curve. -/
theorem pointArithmeticStaysOnTheCurve : Obligations.PointArithmeticStaysOnTheCurve := by
  intro c p q r hp hq hpc hqc
  have hP : p.OnCurveReduced c := ⟨hp, hpc⟩
  have hQ : q.OnCurveReduced c := ⟨hq, hqc⟩
  exact ⟨fun h => ⟨(hP.pdbl h).reduced, (hP.pdbl h).onCurve⟩,
    fun h => ⟨(hP.padd hQ h).reduced, (hP.padd hQ h).onCurve⟩⟩

/-- Settles O51: the base point by its constants, its multiples by the turns of pmul's loop. -/
theorem multiplesOfTheBasePointAreOnTheCurve : Obligations.MultiplesOfTheBasePointAreOnTheCurve := by
  intro c
  have hG : c.basePoint.OnCurveReduced c := ⟨reduced_basePoint c, onCurve_basePoint c⟩
  exact ⟨hG.reduced, hG.onCurve, fun k q h => ⟨(hG.pmul h).reduced, (hG.pmul h).onCurve⟩⟩

end Sys2Proof
end

section
/-! The checks and functions of the protocol commands, an equation per outcome (44_protocol.md R161 to R169). -/

namespace Sys2Proof

theorem weak_iff (c : Curve) (p : Vec) : weak c p = true ↔ deg p < c.m / 2 := decide_eq_true_iff

theorem not_weak_of_le {c : Curve} {p : Vec} (h : c.m / 2 ≤ deg p) : ¬ weak c p = true :=
  mt (weak_iff c p).1 h.not_gt

theorem deg_order_le (c : Curve) : deg c.order ≤ 576 :=
  (deg_le_cap (Vec.fits_const c .order)).trans c.cap_le

theorem getLsbD_maskN (c : Curve) (v : Vec) (i : ℕ) :
    (maskN c v).getLsbD i = (decide (i < deg c.order) && v.getLsbD i) := by
  rw [maskN, BitVec.getLsbD_and, getLsbD_vmask _ i (deg_order_le c), Bool.and_comm]

/-- Settles O56: the test, the mask bit by bit, and the five thresholds. -/
theorem weakKeyAndOrderMask : Obligations.WeakKeyAndOrderMask :=
  ⟨weak_iff, fun _ => by omega, getLsbD_maskN⟩

/-! The shared secret (44_protocol.md R164 to R166). -/

theorem validPeer_iff (c : Curve) (q : Point) :
    validPeer c q = true ↔ q ≠ Point.O ∧ onCurve c q = true := by
  rw [validPeer, Bool.and_eq_true, Bool.not_eq_true', ← Bool.not_eq_true, isIdentity_iff]

theorem Curve.cofactor_eq (c : Curve) : c.cofactor = 2 ∨ c.cofactor = 4 := by
  cases c <;> decide

theorem doublings_succ (c : Curve) (n : ℕ) (p : Point) :
    doublings c (n + 1) p = (pdbl c p).bind (doublings c n) := by
  rw [doublings]
  cases pdbl c p <;> rfl

theorem doublings_one (c : Curve) (p : Point) : doublings c 1 p = pdbl c p := by
  rw [doublings_succ]
  exact Option.bind_fun_some _

theorem cofactorMul_of_cofactor_two {c : Curve} (h : c.cofactor = 2) (p : Point) :
    cofactorMul c p = pdbl c p := by
  rw [cofactorMul, h, show Nat.log2 2 = 1 by decide, doublings_one]

theorem cofactorMul_of_cofactor_four {c : Curve} (h : c.cofactor = 4) (p : Point) :
    cofactorMul c p = (pdbl c p).bind (pdbl c) := by
  rw [cofactorMul, h, show Nat.log2 4 = 1 + 1 by decide, doublings_succ]
  exact Option.bind_congr fun d _ => doublings_one c d

/-- Every cofactor needs a first doubling (44_protocol.md R166). -/
theorem cofactorMul_of_pdbl_none {c : Curve} {p : Point} (h : pdbl c p = none) :
    cofactorMul c p = none := by
  rcases c.cofactor_eq with h2 | h4
  · rw [cofactorMul_of_cofactor_two h2, h]
  · rw [cofactorMul_of_cofactor_four h4, h, Option.bind_none]

theorem sharedSecret_of_pmul_none {c : Curve} {k : Vec} {q : Point} (cofv : Bool)
    (h : pmul c q k = none) : sharedSecret c cofv k q = none := by
  rw [sharedSecret, h]

theorem sharedSecret_of_pmul {c : Curve} {k : Vec} {q p : Point} (cofv : Bool)
    (h : pmul c q k = some p) :
    sharedSecret c cofv k q = if cofv then cofactorMul c p else some p := by
  rw [sharedSecret, h]

/-! The signature component s and the recovered point (44_protocol.md R167 to R169). -/

theorem signS_of_finv_none {c : Curve} {k : Vec} (d z r : Vec) (h : finv c k = none) :
    signS c d k z r = none := by
  rw [signS, h]

theorem signS_of_finv {c : Curve} {k ki : Vec} (d z r : Vec) (h : finv c k = some ki) :
    signS c d k z r = some (fmul c ki (z ^^^ fmul c r d)) := by
  rw [signS, h]

theorem verifyPoint_of_pmul_none {c : Curve} {q : Point} {r w : Vec} (z : Vec)
    (h : pmul c q (fmul c r w) = none) : verifyPoint c q z r w = none := by
  rw [verifyPoint, h]
  cases pmul c c.basePoint (fmul c z w) <;> rfl

theorem verifyPoint_of_pmul {c : Curve} {q a b : Point} {z r w : Vec}
    (ha : pmul c c.basePoint (fmul c z w) = some a) (hb : pmul c q (fmul c r w) = some b) :
    verifyPoint c q z r w = padd c a b := by
  rw [verifyPoint, ha, hb]

namespace Machine

/-! KEYGEN (44_protocol.md R163). -/

theorem keygenResult_of_weak {c : Curve} {p : Vec} (pd : Pair) (rpriv : Reg)
    (h : deg p < c.m / 2) : keygenResult c pd rpriv p = some (.failed .weakPrivateKey) :=
  if_pos ((weak_iff c p).2 h)

theorem keygenResult_of_pmul {c : Curve} {p : Vec} {q : Point} (pd : Pair) (rpriv : Reg)
    (h : c.m / 2 ≤ deg p) (hq : pmul c c.basePoint (maskN c p) = some q) :
    keygenResult c pd rpriv p = some (.success ((rpriv, maskN c p) :: pairWrites pd q)) := by
  rw [keygenResult, if_neg (not_weak_of_le h), hq]

/-! ECDH (44_protocol.md R165). -/

theorem ecdhResult_of_invalid {c : Curve} {q : Point} (cofv : Bool) (pd : Pair) (k : Vec)
    (h : q = Point.O ∨ onCurve c q = false) :
    ecdhResult c cofv pd k q = some (.failed .invalidPeerPublicKey) := by
  refine if_neg fun hv => ?_
  obtain ⟨hO, hon⟩ := (validPeer_iff c q).1 hv
  rcases h with h | h
  · exact hO h
  · cases h.symm.trans hon

theorem ecdhResult_of_valid {c : Curve} {q : Point} (cofv : Bool) (pd : Pair) (k : Vec)
    (hO : q ≠ Point.O) (hon : onCurve c q = true) :
    ecdhResult c cofv pd k q =
      (sharedSecret c cofv k q).map fun p => .success (pairWrites pd p) := by
  rw [ecdhResult, if_pos ((validPeer_iff c q).2 ⟨hO, hon⟩)]
  cases sharedSecret c cofv k q <;> rfl

/-! SIGN (44_protocol.md R167), its checks in their order. -/

theorem signResult_of_weak {c : Curve} {d : Vec} (pd : Pair) (dig k : Vec) (h : deg d < c.m / 2) :
    signResult c pd d dig k = some (.failed .weakPrivateKey) :=
  if_pos ((weak_iff c d).2 h)

section
variable {c : Curve} {d : Vec} (pd : Pair) (dig : Vec) (hd : c.m / 2 ≤ deg d)
include hd

theorem signResult_of_zeroNonce : signResult c pd d dig Vec.ZERO = some (.failed .zeroNonce) := by
  rw [signResult, if_neg (not_weak_of_le hd), if_pos rfl]

variable {k : Vec} (hk : k ≠ Vec.ZERO)
include hk

theorem signResult_of_pmul_none (h : pmul c c.basePoint k = none) : signResult c pd d dig k = none := by
  rw [signResult, if_neg (not_weak_of_le hd), if_neg hk, h]

variable {q : Point} (hq : pmul c c.basePoint k = some q)
include hq

theorem signResult_of_r_zero (hr : q.x = Vec.ZERO) :
    signResult c pd d dig k = some ⟨pairWrites pd Point.O, some 0, .degenerateSignature⟩ := by
  simp only [signResult, if_neg (not_weak_of_le hd), if_neg hk, hq, if_pos hr]

variable (hr : q.x ≠ Vec.ZERO)
include hr

theorem signResult_of_finv_none (h : finv c k = none) : signResult c pd d dig k = none := by
  simp only [signResult, if_neg (not_weak_of_le hd), if_neg hk, hq, if_neg hr, signS_of_finv_none d _ _ h]

/-- With r not ZERO the pair (r, s) is written, and s = ZERO alone tells the two outcomes apart. -/
theorem signResult_of_finv {ki x : Vec} (h : finv c k = some ki)
    (hx : x = fmul c ki (maskN c dig ^^^ fmul c q.x d)) :
    signResult c pd d dig k = some ⟨pairWrites pd ⟨q.x, x⟩, some (if x = Vec.ZERO then 0 else 1),
      if x = Vec.ZERO then .degenerateSignature else .ok⟩ := by
  simp only [signResult, if_neg (not_weak_of_le hd), if_neg hk, hq, if_neg hr, signS_of_finv d _ _ h, ← hx]
  by_cases h0 : x = Vec.ZERO
  · simp only [h0, if_true]
  · simp only [if_neg h0, CmdResult.success]

end

/-! VERIFY (44_protocol.md R169). -/

theorem verifyResult_of_zero_component {c : Curve} {sg : Point} (q : Point) (dig : Vec)
    (h : sg.x = Vec.ZERO ∨ sg.y = Vec.ZERO) :
    verifyResult c q dig sg = some (.failed .invalidSignatureEncoding) :=
  if_pos h

section
variable {c : Curve} {sg : Point} (q : Point) (dig : Vec) (hr : sg.x ≠ Vec.ZERO) (hs : sg.y ≠ Vec.ZERO)
include hr hs

theorem verifyResult_of_finv_none (h : finv c sg.y = none) : verifyResult c q dig sg = none := by
  rw [verifyResult, if_neg (not_or.2 ⟨hr, hs⟩), h]

variable {w : Vec} (h : finv c sg.y = some w)
include h

theorem verifyResult_of_verifyPoint_none (hp : verifyPoint c q (maskN c dig) sg.x w = none) :
    verifyResult c q dig sg = none := by
  simp only [verifyResult, if_neg (not_or.2 ⟨hr, hs⟩), h, hp]

theorem verifyResult_of_verifyPoint {p : Point} (hp : verifyPoint c q (maskN c dig) sg.x w = some p) :
    verifyResult c q dig sg =
      some (if p.x = sg.x then .success [] else .failed .signatureMismatch) := by
  simp only [verifyResult, if_neg (not_or.2 ⟨hr, hs⟩), h, hp]
  exact (apply_ite some _ _ _).symm

end

end Machine
end Sys2Proof
end

section
/-! The commands of the Protocol family (44_protocol.md R160 to R169), and NOT_INVERTIBLE where a command's
function meets it (60_exceptions.md R182). -/

namespace Sys2Proof.Machine

section
variable {i : Instr} {s : State}

/-- A command without results ends in NOT_INVERTIBLE (60_exceptions.md R172). -/
theorem exec_faults (h : cmdResult i s.curve s.ctrl.cofv s.opd = none) :
    ∃ t, exec i s = .next t ∧ Faulted s t .notInvertible s.cmdWord :=
  ⟨s.raiseFault .notInvertible s.cmdWord, by rw [exec_eq_finish, h, State.finish_none],
    s.raiseFault_faulted .notInvertible s.cmdWord⟩

/-- A failed protocol check completes with its status and no register written (44_protocol.md R160). -/
theorem exec_completes_failed {why : PStat}
    (h : cmdResult i s.curve s.ctrl.cofv s.opd = some (.failed why)) :
    ∃ t, exec i s = .next t ∧ Completed s t s.reg 0 why :=
  exec_completes h

/-- A protocol command that writes one point completes with it, RES and its status. -/
theorem exec_completes_pair {pd : Pair} {q : Point} {v : Word} {why : PStat}
    (h : cmdResult i s.curve s.ctrl.cofv s.opd = some ⟨pairWrites pd q, some v, why⟩) :
    ∃ t, exec i s = .next t ∧ Completed s t (s.withPoint pd q) v why := by
  rw [← State.setRegs_pairWrites_eq_withPoint]
  exact exec_completes h

end

/-- A register write outside a pair may follow the writes of the pair. -/
theorem State.setRegs_cons_pairWrites (s : State) {r : Reg} {pd : Pair} (v : Vec) (q : Point)
    (hrx : r ≠ pd.rx) (hry : r ≠ pd.ry) :
    (s.setRegs ((r, v) :: pairWrites pd q)).reg = Function.update (s.withPoint pd q) r v := by
  rw [State.setRegs_cons, State.setRegs_pairWrites_eq_withPoint, State.withPoint, State.withPoint,
    State.reg_setReg_eq_update, Function.update_comm hrx, Function.update_comm hry]

/-- Settles O57: the two outcomes of KEYGEN; its three writes are to three registers. -/
theorem keygenCompletes : Obligations.KeygenCompletes := by
  intro s pd rpriv hrx hry
  refine ⟨fun hweak => ?weak, fun q hstrong hq => ?multiple⟩
  case weak => exact exec_completes_failed (keygenResult_of_weak pd rpriv hweak)
  case multiple =>
    rw [← State.setRegs_cons_pairWrites s _ q hrx hry]
    exact exec_completes (i := .keygen pd rpriv) (keygenResult_of_pmul pd rpriv hstrong hq)

/-- A valid peer and a shared secret: ECDH completes with it (44_protocol.md R165). -/
theorem exec_ecdh_completes {s : State} (pd : Pair) {ppeer : Pair} {rpriv : Reg} {z : Point}
    (hO : s.opdPoint ppeer ≠ Point.O) (hon : onCurve s.curve (s.opdPoint ppeer) = true)
    (h : sharedSecret s.curve s.ctrl.cofv (s.opd rpriv) (s.opdPoint ppeer) = some z) :
    ∃ t, exec (.ecdh pd rpriv ppeer) s = .next t ∧ Completed s t (s.withPoint pd z) 1 .ok :=
  exec_completes_pair ((ecdhResult_of_valid _ pd _ hO hon).trans (congrArg (Option.map _) h))

/-- A valid peer and no shared secret: ECDH faults (60_exceptions.md R182). -/
theorem exec_ecdh_faults {s : State} (pd : Pair) {ppeer : Pair} {rpriv : Reg}
    (hO : s.opdPoint ppeer ≠ Point.O) (hon : onCurve s.curve (s.opdPoint ppeer) = true)
    (h : sharedSecret s.curve s.ctrl.cofv (s.opd rpriv) (s.opdPoint ppeer) = none) :
    ∃ t, exec (.ecdh pd rpriv ppeer) s = .next t ∧ Faulted s t .notInvertible s.cmdWord :=
  exec_faults ((ecdhResult_of_valid _ pd _ hO hon).trans (congrArg (Option.map _) h))

/-- Settles O58: an invalid peer, and the shared secret of a valid one for COFV = 0, h = 2 and h = 4. -/
theorem ecdhCompletes : Obligations.EcdhCompletes := by
  rintro s pd ppeer rpriv _ p d e rfl
  refine ⟨fun hinvalid => ?invalid, fun hO hon hp => ⟨fun hcofv => ?plain, fun hcofv h2 hd => ?twofold,
    fun hcofv h4 hd he => ?fourfold⟩⟩
  case invalid => exact exec_completes_failed (ecdhResult_of_invalid _ pd _ hinvalid)
  case plain =>
    refine exec_ecdh_completes pd hO hon ((sharedSecret_of_pmul _ hp).trans ?_)
    simp [hcofv]
  case twofold =>
    refine exec_ecdh_completes pd hO hon ((sharedSecret_of_pmul _ hp).trans ?_)
    rw [if_pos hcofv, cofactorMul_of_cofactor_two h2, hd]
  case fourfold =>
    refine exec_ecdh_completes pd hO hon ((sharedSecret_of_pmul _ hp).trans ?_)
    rw [if_pos hcofv, cofactorMul_of_cofactor_four h4, hd, Option.bind_some, he]

/-- Settles O59: the checks in R167's order, then r = ZERO, then s. -/
theorem signCompletes : Obligations.SignCompletes := by
  intro s pd rpriv rdig rnonce q ki x
  refine ⟨fun hweak => ?weak, fun hd hk => ?zeroNonce, fun hd hk hq hinv hx => ?signature⟩
  case weak => exact exec_completes_failed (signResult_of_weak pd _ _ hweak)
  case zeroNonce =>
    refine exec_completes_failed (i := .sign pd rpriv rdig rnonce) ?_
    rw [cmdResult, hk, signResult_of_zeroNonce pd _ hd]
  case signature =>
    by_cases hr : q.x = Vec.ZERO
    · simp only [hr, if_true, true_or]
      exact exec_completes_pair (signResult_of_r_zero pd _ hd hk hq hr)
    · simp only [hr, if_false, false_or]
      exact exec_completes_pair (signResult_of_finv pd _ hd hk hq hr (hinv.resolve_left hr) hx)

/-- Settles O60: a zero component, and the recovered point's x compared with r. -/
theorem verifyCompletes : Obligations.VerifyCompletes := by
  intro s ppub psig rdig w a b x
  refine ⟨fun hzero => ?encoding, fun hr hs hw ha hb hx => ?_⟩
  case encoding => exact exec_completes_failed (verifyResult_of_zero_component _ _ hzero)
  have hresult := verifyResult_of_verifyPoint (sg := s.opdPoint psig) _ (s.opd rdig) hr hs hw
    ((verifyPoint_of_pmul ha hb).trans hx)
  refine ⟨fun hmatch => ?_, fun hmismatch => ?_⟩
  · exact exec_completes (i := .verify ppub rdig psig)
      (hresult.trans (congrArg some (if_pos hmatch)))
  · exact exec_completes_failed (i := .verify ppub rdig psig)
      (hresult.trans (congrArg some (if_neg hmismatch)))

/-- A nonce that finv rejects: NOT_INVERTIBLE, unless r = ZERO has ended SIGN before (44_protocol.md R167). -/
theorem exec_sign_of_finv_none {s : State} (pd : Pair) {rpriv rdig rnonce : Reg}
    (hd : s.curve.m / 2 ≤ deg (s.opd rpriv)) (hk : s.opd rnonce ≠ Vec.ZERO)
    (hinv : finv s.curve (s.opd rnonce) = none) :
    ∃ t, exec (.sign pd rpriv rdig rnonce) s = .next t ∧
      (Faulted s t .notInvertible s.cmdWord ∨
        ∃ q, pmul s.curve s.curve.basePoint (s.opd rnonce) = some q ∧ q.x = Vec.ZERO ∧
          Completed s t (s.withPoint pd Point.O) 0 .degenerateSignature) := by
  cases hq : pmul s.curve s.curve.basePoint (s.opd rnonce) with
  | none =>
    obtain ⟨t, ht, hfault⟩ := exec_faults (i := .sign pd rpriv rdig rnonce)
        (signResult_of_pmul_none pd (s.opd rdig) hd hk hq)
    exact ⟨t, ht, .inl hfault⟩
  | some q =>
    by_cases hr : q.x = Vec.ZERO
    · obtain ⟨t, ht, hdone⟩ := exec_completes_pair (i := .sign pd rpriv rdig rnonce)
        (signResult_of_r_zero pd (s.opd rdig) hd hk hq hr)
      exact ⟨t, ht, .inr ⟨q, rfl, hr, hdone⟩⟩
    · obtain ⟨t, ht, hfault⟩ := exec_faults (i := .sign pd rpriv rdig rnonce)
        (signResult_of_finv_none pd (s.opd rdig) hd hk hq hr hinv)
      exact ⟨t, ht, .inl hfault⟩

/-- Settles O55: each command's function answers none where it meets the non-invertible value. -/
theorem notInvertibleFaultsCommitNothing : Obligations.NotInvertibleFaultsCommitNothing := by
  intro s rd rs1 rs2 rs3 pd ps
  refine ⟨fun h => ?finv, fun h => ?pdbl, fun h => ?padd, fun h => ?pmul, ?ecdh,
    exec_sign_of_finv_none pd, ?verify⟩
  case finv | pdbl | padd | pmul => exact exec_faults (congrArg (Option.map _) h)
  case ecdh =>
    rintro _ rfl hO hon
    refine ⟨fun hmul => ?_, fun p hcofv hp hd => ?_, fun p d hcofv h4 hp hd he => ?_⟩
    · exact exec_ecdh_faults pd hO hon (sharedSecret_of_pmul_none _ hmul)
    · refine exec_ecdh_faults pd hO hon ((sharedSecret_of_pmul _ hp).trans ?_)
      rw [if_pos hcofv, cofactorMul_of_pdbl_none hd]
    · refine exec_ecdh_faults pd hO hon ((sharedSecret_of_pmul _ hp).trans ?_)
      rw [if_pos hcofv, cofactorMul_of_cofactor_four h4, hd, Option.bind_some, he]
  case verify =>
    intro hr hs
    refine ⟨fun hinv => ?_, fun w hw hmul => ?_, fun w a b hw ha hb hsum => ?_⟩
    · exact exec_faults (verifyResult_of_finv_none _ _ hr hs hinv)
    · exact exec_faults (verifyResult_of_verifyPoint_none (sg := s.opdPoint pd) _ (s.opd rd) hr hs hw
        (verifyPoint_of_pmul_none _ hmul))
    · exact exec_faults (verifyResult_of_verifyPoint_none (sg := s.opdPoint pd) _ (s.opd rd) hr hs hw
        ((verifyPoint_of_pmul ha hb).trans hsum))

end Sys2Proof.Machine
end

section
/-! The life cycle of a command (60_exceptions.md section 3): the fault action, the acceptance of a word, the
engine's own step that runs it, and its two ends. -/

namespace Sys2Proof.Machine

/-- Settles O16: every field of the fault action's state, and the record of a read. -/
theorem faultActionWritesNothingElse : Obligations.FaultActionWritesNothingElse := fun s code info =>
  ⟨s.raiseFault_faulted code info, rfl⟩

/-! Acceptance, verdict by verdict (60_exceptions.md R177). -/

/-- The state a legal word leaves on an IDLE engine; `State.accept_of_legal` ties it to acceptance. -/
def State.accepted (s : State) (w : Word) : State :=
  { s with cmd := w, done := false, pending := some ⟨w, s.R⟩, busy := true }

section
variable {s : State} {w : Word}

theorem State.accept_of_illegal (h : verdict s.curve w = .illegal) :
    s.accept w = { s with cmd := w, done := false }.raiseFault .illegal w := by
  simp only [State.accept, h]

theorem State.accept_of_overlap (h : verdict s.curve w = .overlap) :
    s.accept w = { s with cmd := w, done := false }.raiseFault .overlap w := by
  simp only [State.accept, h]

theorem State.accept_of_legal {i : Instr} (h : verdict s.curve w = .legal i) :
    s.accept w = s.accepted w := by
  simp only [State.accept, h, State.accepted]

/-- A CMD write to an IDLE engine is an acceptance. -/
theorem hostWrite_cmd_of_idle (he : s.err = false) (hb : s.busy = false) :
    hostWrite 32 0x010 w s = .next { s.accept w with rdata := none } := by
  rw [hostWrite_cmd, State.writeLoc_cmd_of_idle he hb]

theorem hostWrite_cmd_of_legal {i : Instr} (he : s.err = false) (hb : s.busy = false)
    (h : verdict s.curve w = .legal i) :
    hostWrite 32 0x010 w s = .next { s.accepted w with rdata := none } := by
  rw [hostWrite_cmd_of_idle he hb, State.accept_of_legal h]

end

/-- Settles O17: ERROR and BUSY by what a CMD write does there, IDLE by the verdict of the word. -/
theorem acceptanceOfACommandWord : Obligations.AcceptanceOfACommandWord := by
  intro s w
  refine ⟨fun he => ?inError, fun he hb => ⟨_, hostWrite_cmd s w, ?whileBusy⟩,
    fun he hb hv => ⟨_, hostWrite_cmd_of_idle he hb, ?illegal⟩,
    fun he hb hv => ⟨_, hostWrite_cmd_of_idle he hb, ?overlap⟩, fun i he hb hv => ?legal⟩
  case inError => rw [hostWrite_cmd, State.writeLoc_cmd_of_err he]
  case whileBusy =>
    rw [State.writeLoc_cmd_of_busy he hb]
    exact s.raiseFault_rdata_faulted .overrun _ none
  case illegal =>
    rw [State.accept_of_illegal hv]
    exact State.raiseFault_rdata_faulted _ .illegal w none
  case overlap =>
    rw [State.accept_of_overlap hv]
    exact State.raiseFault_rdata_faulted _ .overlap w none
  case legal => exact hostWrite_cmd_of_legal he hb hv

/-! The step that runs a pending command (60_exceptions.md R178). -/

theorem step_of_no_inputs {s : State} (hin : s.inputs = []) : step s = engineStep s := by
  rw [step, advance, hin]

theorem step_of_input {s : State} {e : Input} {rest : List Input} (hin : s.inputs = e :: rest) :
    step s = deliver e { s with inputs := rest } := by
  rw [step, advance, hin]

section
variable {s : State} {p : Pending} {i : Instr} (hb : s.busy = true) (hp : s.pending = some p)
  (hl : verdict s.curve p.word = .legal i)
include hb hp hl

theorem engineStep_of_legal : engineStep s = exec i s := by
  simp only [engineStep, hb, hp, hl, if_true]

theorem step_engineStep_of_legal {rest : List Input} (hin : s.inputs = .engineStep :: rest) :
    step s = exec i { s with inputs := rest } := by
  rw [step_of_input hin, deliver_engineStep]
  exact engineStep_of_legal hb hp hl

end

/-- Settles O18: both schedules come to the engine's own step. -/
theorem stepRunsDecodedCommand : Obligations.StepRunsDecodedCommand := by
  intro s p i hb hp hl
  refine ⟨fun hin => ?_, fun rest hin => step_engineStep_of_legal hb hp hl hin⟩
  rw [step_of_no_inputs hin, engineStep_of_legal hb hp hl]

/-- Placing a legal word leaves it pending, the engine's own step the next input (log 5). -/
theorem State.submitted_of_legal {s : State} {w : Word} {i : Instr}
    (h : verdict s.curve w = .legal i) :
    s.submitted w = { State.accepted { s with err := false, ecode := .none } w with
      inputs := .engineStep :: s.inputs } := by
  simp only [State.submitted, State.accept_of_legal (s := { s with
    err := false, ecode := .none, busy := false, pending := none }) h, State.accepted]

/-- Settles O19: the placed word is pending, and its step is the head input. -/
theorem placedWordRunsNext : Obligations.PlacedWordRunsNext := by
  rintro s nbits n _ i rfl hl
  rw [State.withFetchWord, State.submitted_of_legal hl]
  exact step_engineStep_of_legal rfl rfl hl rfl

/-- Settles O20: the command's results decide which of the two ends it has. -/
theorem everyCommandEndsOneOfTwoWays : Obligations.EveryCommandEndsOneOfTwoWays := by
  intro i s
  cases hr : cmdResult i s.curve s.ctrl.cofv s.opd with
  | some r =>
    obtain ⟨t, ht, hdone⟩ := exec_completes hr
    exact ⟨t, ht, hdone.busy, hdone.pending, .inl ⟨hdone.done, hdone.err, hdone.ecode, hdone.finfo⟩⟩
  | none =>
    obtain ⟨t, ht, hfault⟩ := exec_faults hr
    exact ⟨t, ht, hfault.busy, hfault.pending, .inr hfault⟩

/-- A STATUS write touches DONE at most (10_state.md R36). -/
theorem hostWrite_status_keeps (s : State) (v : Word) :
    ∃ t, hostWrite 32 0x00C v s = .next t ∧ t.err = s.err ∧ t.pending = s.pending := by
  refine ⟨_, hostWrite_status s v, ?_⟩
  cases hv : v.getLsbD 1 with
  | true => exact State.writeLoc_status_of_set hv ▸ ⟨rfl, rfl⟩
  | false => exact State.writeLoc_status_of_clear hv ▸ ⟨rfl, rfl⟩

/-- Settles O38: the three writes by their registers' own statements, and the accesses that BUSY does not touch. -/
theorem overrunAbortsThePendingCommand : Obligations.OverrunAbortsThePendingCommand := by
  intro s v hb he
  refine ⟨?cmd, fun hv => ?ctrl, fun r w hw => ?data, fun off x hoff hx => ?read, ?status,
    fun hv => ?reset⟩
  case cmd =>
    obtain ⟨-, hoverrun, -⟩ := acceptanceOfACommandWord s v
    exact hoverrun he hb
  case ctrl =>
    obtain ⟨-, -, hoverrun⟩ := ctrlRegisterLayoutAndWrite s v
    exact hoverrun hv hb
  case data =>
    obtain ⟨-, -, hoverrun⟩ := dataWindowReadsAndWrites s r w v hw
    exact hoverrun hb
  case read => exact ⟨_, (readsHaveNoSideEffect.1 s off x hoff hx).1, he, rfl⟩
  case status => exact he ▸ hostWrite_status_keeps s v
  case reset => exact ⟨_, hostWrite_ctrl s v, State.writeLoc_ctrl_of_srst hv ▸ s.engineReset_err⟩

end Sys2Proof.Machine
end

section
/-! The host routine run(word) (70_reset_and_hazards.md R198): a poll of STATUS writes only the record of the
read, which no command looks at and the last read of the routine overwrites (log 3). -/

namespace Sys2Proof.Machine

/-! The record of a read beside a command. -/

theorem State.setRegs_withRdata (s : State) (rd : Option Word) (ws : List (Reg × Vec)) :
    State.setRegs { s with rdata := rd } ws = { s.setRegs ws with rdata := rd } := by
  induction ws generalizing s with
  | nil => rfl
  | cons w ws ih => exact ih (s.setReg w.1 w.2)

theorem State.commit_withRdata (s : State) (rd : Option Word) (r : CmdResult) :
    State.commit { s with rdata := rd } r = { s.commit r with rdata := rd } := by
  rw [State.commit, State.setRegs_withRdata]
  rfl

/-- A command neither reads nor writes the record of the last host access. -/
theorem exec_withRdata {i : Instr} {s t : State} (rd : Option Word) (h : exec i s = .next t) :
    exec i { s with rdata := rd } = .next { t with rdata := rd } := by
  rcases exec_cases h with ⟨r, hr, _, rfl⟩ | ⟨hr, rfl⟩
  · rw [← State.commit_withRdata]
    exact exec_of_cmdResult hr
  · rw [exec_eq_finish]
    exact congrArg (State.finish { s with rdata := rd }) hr

/-! The routine, step by step. -/

theorem step_statusRead {s : State} {rest : List Input} (hin : s.inputs = .read 32 0x00C :: rest) :
    step s = .next { s with inputs := rest, rdata := some s.statusWord } := by
  rw [step_of_input hin]
  exact hostRead_of_locate (l := .status) (by decide) rfl rfl

theorem step_cmdWrite_of_legal {s : State} {w : Word} {i : Instr} {rest : List Input}
    (he : s.err = false) (hb : s.busy = false) (hl : verdict s.curve w = .legal i)
    (hin : s.inputs = .write 32 0x010 w :: rest) :
    step s = .next { s.accepted w with inputs := rest, rdata := none } := by
  rw [step_of_input hin]
  exact hostWrite_cmd_of_legal he hb hl

/-- Polling STATUS only takes the polls off the inputs and leaves a record. -/
theorem runSteps_polls {s : State} (polls n : Nat) {rest : List Input}
    (hin : s.inputs = List.replicate polls (.read 32 0x00C) ++ rest) :
    ∃ rd, runSteps (polls + n) s = runSteps n { s with inputs := rest, rdata := rd } := by
  induction polls generalizing s with
  | zero =>
    rw [List.replicate_zero, List.nil_append] at hin
    subst hin
    exact ⟨s.rdata, by rw [Nat.zero_add]⟩
  | succ polls ih =>
    rw [List.replicate_succ, List.cons_append] at hin
    obtain ⟨rd, hrun⟩ := ih (s := { s with inputs := _, rdata := some s.statusWord }) rfl
    refine ⟨rd, ?_⟩
    rw [Nat.add_right_comm, runSteps_succ_of_step _ (step_statusRead hin), hrun]

/-- The completion and the last read of STATUS. -/
theorem runSteps_completion {s t : State} {p : Pending} {i : Instr} (hb : s.busy = true)
    (hp : s.pending = some p) (hl : verdict s.curve p.word = .legal i)
    (hin : s.inputs = [.engineStep, .read 32 0x00C])
    (ht : exec i { s with inputs := [.read 32 0x00C] } = .next t) :
    runSteps 2 s = .next { t with inputs := [], rdata := some t.statusWord } := by
  obtain ⟨-, -, -, hinputs⟩ := exec_frame ht
  have hcomplete : step s = .next t := (step_engineStep_of_legal hb hp hl hin).trans ht
  rw [runSteps_succ_of_step 1 hcomplete, runSteps_succ_of_step 0 (step_statusRead hinputs),
    runSteps_zero]

/-- The routine on an IDLE engine ends, not BUSY, in one state for every number of polls: the record they leave
goes through the command unread. -/
theorem runSteps_hostRun {s : State} {w : Word} {i : Instr} (he : s.err = false) (hb : s.busy = false)
    (hl : verdict s.curve w = .legal i) :
    ∃ t, t.inputs = [] ∧ t.busy = false ∧
      ∀ polls, runSteps (polls + 3) { s with inputs := hostRun w polls } = .next t := by
  obtain ⟨t, ht, hbusy, -⟩ :=
    everyCommandEndsOneOfTwoWays i { s.accepted w with inputs := [.read 32 0x00C] }
  refine ⟨{ t with inputs := [], rdata := some t.statusWord }, rfl, hbusy, fun polls => ?_⟩
  have hwrite := step_cmdWrite_of_legal (s := { s with inputs := hostRun w polls }) he hb hl rfl
  obtain ⟨rd, hpolls⟩ := runSteps_polls polls 2
    (s := { s.accepted w with inputs := _, rdata := none }) rfl
  have hcompletion := runSteps_completion
    (s := { s.accepted w with inputs := [.engineStep, .read 32 0x00C], rdata := rd })
    rfl rfl hl rfl (exec_withRdata rd ht)
  exact (runSteps_succ_of_step _ hwrite).trans (hpolls.trans hcompletion)

/-- Settles O41: the end of the routine is the same state for the polls given and for none. -/
theorem resultDoesNotDependOnPolling : Obligations.ResultDoesNotDependOnPolling := by
  intro s w i polls he hb hl hin
  obtain ⟨t, hinputs, hbusy, hrun⟩ := runSteps_hostRun he hb hl
  have hpolled : runSteps (polls + 3) s = .next t := by
    rw [← hrun polls, ← hin]
  exact ⟨⟨t, hpolled, hinputs, hbusy⟩, hpolled.trans (hrun 0).symm⟩

end Sys2Proof.Machine
end

section
/-! Reset (70_reset_and_hazards.md section 1): the words a reset engine shows, and the two ways to reset it. -/

namespace Sys2Proof.Machine

@[simp] theorem Ctrl.word_clear : (⟨false, false, false⟩ : Ctrl).word = 0 := by decide

@[simp] theorem State.engineReset_statusWord (s : State) : s.engineReset.statusWord = 0 := by
  simp [State.statusWord, flagAt, ECode.code, PStat.code]

@[simp] theorem State.engineReset_life (s : State) : s.engineReset.life = .idle := by
  simp [State.life]

theorem State.engineReset_readWord_ctrl (s : State) : s.engineReset.readWord 0x008 = some 0 := by
  rw [State.readWord_of_locate (l := .ctrl) rfl rfl, State.readLoc, State.engineReset_ctrl,
    Ctrl.word_clear]

/-- A CTRL write with SRST is the reset itself: the record it clears is clear after a reset (log 3). -/
theorem hostWrite_ctrl_of_srst (s : State) {v : Word} (hv : srst v = true) :
    hostWrite 32 0x008 v s = .next s.engineReset := by
  rw [hostWrite_ctrl, State.writeLoc_ctrl_of_srst hv]
  rfl

theorem step_hardReset {s : State} {rest : List Input} (hin : s.inputs = .hardReset :: rest) :
    step s = .next { s with inputs := rest }.engineReset := by
  rw [step_of_input hin, deliver_hardReset]

/-- Settles O13: the pieces of R194 in its order, on the state the head input leaves. -/
theorem hardResetSetsEveryPiece : Obligations.HardResetSetsEveryPiece := by
  intro s rest hin
  exact ⟨_, step_hardReset hin, State.engineReset_reg _, rfl, State.engineReset_statusWord _,
    Ctrl.word_clear, rfl, rfl, rfl, State.irq_of_not_done_not_err rfl rfl,
    State.engineReset_life _, rfl, rfl⟩

/-- Settles O14: both inputs come to `engineReset`. -/
theorem softResetIsHardReset : Obligations.SoftResetIsHardReset := by
  intro s v hv
  have hwrite := hostWrite_ctrl_of_srst s hv
  exact ⟨hwrite.trans (deliver_hardReset s).symm, _, hwrite, rfl, rfl, rfl,
    s.engineReset_readWord_ctrl⟩

end Sys2Proof.Machine
end

section
/-! Progress (70_reset_and_hazards.md R203): in a sound state what is pending is a legal command, so that the
engine's own step has none of the two faults, and a host access inside the block always answers. -/

namespace Sys2Proof.Machine

/-- BUSY of a sound state comes with a pending legal command, and every command ends. -/
theorem State.Inv.engineStep_next {s : State} (h : s.Inv) : ∃ t, engineStep s = .next t := by
  rcases engineStep_cases s with ⟨-, hidle⟩ | ⟨hb, hp, -⟩ | ⟨p, i, -, -, -, hrun⟩ | ⟨p, -, hp, hno, -⟩
  case inl => exact ⟨s, hidle⟩
  case inr.inl =>
    have hsome := h.pending_iff_busy
    rw [hp, hb] at hsome
    cases hsome
  case inr.inr.inl =>
    obtain ⟨t, ht, -⟩ := everyCommandEndsOneOfTwoWays i s
    exact ⟨t, hrun.trans ht⟩
  case inr.inr.inr =>
    obtain ⟨i, hlegal⟩ := h.pending_legal p hp
    exact absurd hlegal (hno i)

/-- The one refusal of a delivery is that of an access the engine does not own (20_memory.md R64). -/
theorem State.Inv.deliver_next_or_outside {s : State} (h : s.Inv) (e : Input) :
    (∃ t, deliver e s = .next t) ∨
      ∃ width off, blockSize ≤ off ∧ deliver e s = .refused (.outsideBlock off) ∧
        (e = .read width off ∨ ∃ v, e = .write width off v) := by
  cases e with
  | read width off =>
    rcases hostRead_cases width off s with ⟨hoff, hr⟩ | ⟨-, -, hbus⟩ | ⟨_, -, -, hread⟩
    · exact .inr ⟨width, off, hoff, hr, .inl rfl⟩
    · exact .inl ⟨_, hbus⟩
    · exact .inl ⟨_, hread⟩
  | write width off v =>
    rcases hostWrite_cases width off v s with ⟨hoff, hr⟩ | ⟨-, -, hbus⟩ | ⟨_, -, -, hwrite⟩
    · exact .inr ⟨width, off, hoff, hr, .inr ⟨v, rfl⟩⟩
    · exact .inl ⟨_, hbus⟩
    · exact .inl ⟨_, hwrite⟩
  | engineStep => exact .inl h.engineStep_next
  | hardReset => exact .inl ⟨_, deliver_hardReset s⟩

/-- Settles O23: by whether anything comes from outside; taking it off the inputs keeps the state sound. -/
theorem soundStatesAlwaysGoOn : Obligations.SoundStatesAlwaysGoOn := by
  intro s hs
  rcases step_cases s with ⟨-, hstep⟩ | ⟨e, rest, hin, hstep⟩
  · rw [hstep]
    exact .inl hs.engineStep_next
  · rw [hstep]
    rcases (hs.withModelFields rest s.rdata).deliver_next_or_outside e with
      hnext | ⟨width, off, hoff, hrefused, he⟩
    · exact .inl hnext
    · refine .inr ⟨width, off, rest, hoff, hrefused, ?_⟩
      rcases he with rfl | ⟨v, rfl⟩
      · exact .inl hin
      · exact .inr ⟨v, hin⟩

end Sys2Proof.Machine
end
